-- ==== Sys2Proof/Word.lean ====
section
/-! DEFINITION. The word types of the block: 32-bit registers, 8-bit samples, binary64 values. -/

namespace Sys2Proof

/-- A 32-bit register value (R8). -/
abbrev Word := BitVec 32

/-- One byte of memory, one channel sample (R43). -/
abbrev Byte := BitVec 8

/-- A finite binary64 value, held as the rational number it is (R10, R116: a model may represent F64 values as
rationals and drop the sign of zero). Which rationals are binary64 values is `isF64`. -/
abbrev F64 := Rat

end Sys2Proof
end

