-- ==== Sys2Proof/Syntax.lean ====
section
/-! DEFINITION. The syntax of everything the block is sent: the nine instructions (words written to CTRL), the host's register
transactions, and the events of the other agents. -/

namespace Sys2Proof

/-- The eight strategies a command selects (R2, R73). -/
inductive Strategy where
  | atk
  | fs
  | jjn
  | stk
  | bayer2
  | bayer4
  | bayer8
  | clust4
  deriving DecidableEq, Repr

/-- The instructions: one constructor per row of the opcode table (R73, R79). `irqEn` is bit 1 of the word. -/
inductive Instr where
  /-- DITHER.ATK (R110) -/
  | ditherAtk (irqEn : Bool)
  /-- DITHER.FS (R111) -/
  | ditherFs (irqEn : Bool)
  /-- DITHER.JJN (R112) -/
  | ditherJjn (irqEn : Bool)
  /-- DITHER.STK (R113) -/
  | ditherStk (irqEn : Bool)
  /-- DITHER.BAYER2 (R129) -/
  | ditherBayer2 (irqEn : Bool)
  /-- DITHER.BAYER4 (R130) -/
  | ditherBayer4 (irqEn : Bool)
  /-- DITHER.BAYER8 (R131) -/
  | ditherBayer8 (irqEn : Bool)
  /-- DITHER.CLUST4 (R132) -/
  | ditherClust4 (irqEn : Bool)
  /-- CTRL.SET (R79, R142): `algo` is bits 7:4; the other bits of the word are ignored. -/
  | ctrlSet (irqEn : Bool) (algo : BitVec 4)
  deriving DecidableEq, Repr

/-- The registers of the window, in offset order (R18). -/
inductive RegName where
  | id
  | version
  | caps
  | ctrl
  | status
  | width
  | height
  | threshold
  | bufBase
  | bufLen
  | progress
  | faultAddr
  | maxDim
  | reserved34
  | reserved38
  | reserved3C
  deriving DecidableEq, Repr

/-- The width of a host access to the window (R50). -/
inductive Size where
  | byte
  | half
  | word
  | double
  deriving DecidableEq, Repr

/-- A host access to the register window (R69, R136). The offset is relative to REG_BASE; a narrower access carries its data
in the low bits. -/
inductive Access where
  | rd (size : Size) (offset : Word)
  | wr (size : Size) (offset : Word) (data : Word)
  deriving DecidableEq, Repr

/-- Who makes a memory access: the host, or any other agent that is not the engine (R172). -/
inductive Requester where
  | host
  | other
  deriving DecidableEq, Repr

/-- One byte access to memory by an agent that is not the engine (R5, R62). -/
inductive MemOp where
  | read (addr : Word)
  | write (addr : Word) (data : Byte)
  deriving DecidableEq, Repr

/-- One move of an agent: the model's schedule is a list of these (R5, R163). -/
inductive Event where
  /-- a host access to the register window (R135 to R143) -/
  | access (a : Access)
  /-- a memory access of the host or of another agent (R5, R62, R172) -/
  | mem (who : Requester) (op : MemOp)
  /-- host cache maintenance: make the host's write to this byte visible at the memory port (R61, R68) -/
  | clean (addr : Word)
  /-- host cache maintenance: discard the host's clean copy of this byte (R63, R68) -/
  | discard (addr : Word)
  /-- the ENGINE's turn: one pixel step if one is enabled (R145) -/
  | engine
  /-- the reset input (R178) -/
  | reset
  deriving DecidableEq, Repr

/-- The platform's answer to one engine access (R7, R161): data, or an error response. An error response to a write leaves
each of the R, G and B bytes old or new. -/
inductive BusAnswer where
  | ok
  | error (newR newG newB : Bool)
  deriving DecidableEq, Repr

end Sys2Proof
end

