-- ==== Sys2Proof/Decode.lean ====
section
/-! DEFINITION. The decoder of words written to CTRL (R71 to R73, R77 to R81), and the encoder. -/

namespace Sys2Proof

/-- Why a word written to CTRL is no instruction (R81). -/
inductive WordError where
  /-- ILLEGAL(RSVD_BITS) -/
  | rsvdBits
  /-- ILLEGAL(BAD_ALGO) -/
  | badAlgo
  deriving DecidableEq, Repr

/-- Why a run of bytes holds no instruction. -/
inductive DecodeError where
  /-- fewer than four bytes: every instruction is one 32-bit word (R71, R82) -/
  | truncated
  /-- four bytes whose word is illegal (R81) -/
  | illegal (e : WordError)
  deriving DecidableEq, Repr

/-- START = d[0] (R72). -/
def startBit (d : Word) : Bool := d.getLsbD 0

/-- IRQ_EN = d[1] (R72). -/
def irqBit (d : Word) : Bool := d.getLsbD 1

/-- RSVD_LO = d[3:2] (R72). -/
def rsvdLo (d : Word) : BitVec 2 := d.extractLsb' 2 2

/-- ALGO = d[7:4] (R72). -/
def algoField (d : Word) : BitVec 4 := d.extractLsb' 4 4

/-- RSVD_HI = d[31:8] (R72). -/
def rsvdHi (d : Word) : BitVec 24 := d.extractLsb' 8 24

/-- The ALGO code of a strategy (R73). -/
def Strategy.code : Strategy → BitVec 4
  | .atk => 0
  | .fs => 1
  | .jjn => 2
  | .stk => 3
  | .bayer2 => 4
  | .bayer4 => 5
  | .bayer8 => 6
  | .clust4 => 7

/-- The strategy of an ALGO code; codes 8..15 are reserved (R73). -/
def Strategy.ofCode (c : BitVec 4) : Option Strategy :=
  match c.toNat with
  | 0 => some .atk
  | 1 => some .fs
  | 2 => some .jjn
  | 3 => some .stk
  | 4 => some .bayer2
  | 5 => some .bayer4
  | 6 => some .bayer8
  | 7 => some .clust4
  | _ => none

/-- The command that selects a strategy (R73, R81). -/
def Strategy.instr (a : Strategy) (irqEn : Bool) : Instr :=
  match a with
  | .atk => .ditherAtk irqEn
  | .fs => .ditherFs irqEn
  | .jjn => .ditherJjn irqEn
  | .stk => .ditherStk irqEn
  | .bayer2 => .ditherBayer2 irqEn
  | .bayer4 => .ditherBayer4 irqEn
  | .bayer8 => .ditherBayer8 irqEn
  | .clust4 => .ditherClust4 irqEn

/-- The decoder of R81 for a word written to CTRL. -/
def decodeWord (d : Word) : Except WordError Instr :=
  if startBit d = false then .ok (.ctrlSet (irqBit d) (algoField d))
  else if rsvdLo d ≠ 0 ∨ rsvdHi d ≠ 0 then .error .rsvdBits
  else
    match Strategy.ofCode (algoField d) with
    | none => .error .badAlgo
    | some a => .ok (a.instr (irqBit d))

/-- A 32-bit word from its four bytes, the lowest address first: the window is little-endian (R48). -/
def wordOfBytes (b0 b1 b2 b3 : Byte) : Word := b3 ++ b2 ++ b1 ++ b0

/-- The four bytes of a word, the lowest address first (R48). -/
def bytesOfWord (w : Word) : List Byte :=
  [w.extractLsb' 0 8, w.extractLsb' 8 8, w.extractLsb' 16 8, w.extractLsb' 24 8]

/-- Decode an instruction from bytes: total, and with the bytes that follow it. -/
def decodeBytes : List Byte → Except DecodeError (Instr × List Byte)
  | b0 :: b1 :: b2 :: b3 :: rest =>
    match decodeWord (wordOfBytes b0 b1 b2 b3) with
    | .ok i => .ok (i, rest)
    | .error e => .error (.illegal e)
  | _ => .error .truncated

/-- The word whose bits below `nbits` are those of `w`, all other bits zero. -/
def tableWord (nbits w : Nat) : Word := BitVec.ofNat 32 (w % 2 ^ nbits)

/-- The instruction the decoder reads from a row's word of `nbits` bits. -/
def decodeTableWord (nbits w : Nat) : Option Instr :=
  match decodeBytes (bytesOfWord (tableWord nbits w)) with
  | .ok (i, _) => some i
  | .error _ => none

/-- A Boolean as the one-bit field it is written to. -/
def bit (b : Bool) : BitVec 1 := BitVec.ofBool b

/-- The fields of a word written to CTRL, in the layout of R71, reserved bits zero. -/
def ctrlWordOf (algo : BitVec 4) (irqEn start : Bool) : Word :=
  (0 : BitVec 24) ++ algo ++ (0 : BitVec 2) ++ bit irqEn ++ bit start

/-- The command word of a strategy (R71, R73, R84). -/
def commandWord (a : Strategy) (irqEn : Bool) : Word := ctrlWordOf a.code irqEn true

/-- The encoder: the word of an instruction (R71, R73, R79, R84). CTRL.SET is written with its ignored bits zero. -/
def encode : Instr → Word
  | .ditherAtk irqEn => commandWord .atk irqEn
  | .ditherFs irqEn => commandWord .fs irqEn
  | .ditherJjn irqEn => commandWord .jjn irqEn
  | .ditherStk irqEn => commandWord .stk irqEn
  | .ditherBayer2 irqEn => commandWord .bayer2 irqEn
  | .ditherBayer4 irqEn => commandWord .bayer4 irqEn
  | .ditherBayer8 irqEn => commandWord .bayer8 irqEn
  | .ditherClust4 irqEn => commandWord .clust4 irqEn
  | .ctrlSet irqEn algo => ctrlWordOf algo irqEn false

/-- The bytes of an instruction as they lie in the window (R48). -/
def encodeBytes (i : Instr) : List Byte := bytesOfWord (encode i)

/-- One row of the opcode table: a word `d` is the row's when `d &&& mask = pattern` (R81). -/
structure OpcodeRow where
  mask : Word
  pattern : Word
  deriving DecidableEq, Repr

/-- The row of each instruction, as R81 gives masks and matches. -/
def Instr.row : Instr → OpcodeRow
  | .ditherAtk _ => ⟨0xFFFFFFFD, 0x00000001⟩
  | .ditherFs _ => ⟨0xFFFFFFFD, 0x00000011⟩
  | .ditherJjn _ => ⟨0xFFFFFFFD, 0x00000021⟩
  | .ditherStk _ => ⟨0xFFFFFFFD, 0x00000031⟩
  | .ditherBayer2 _ => ⟨0xFFFFFFFD, 0x00000041⟩
  | .ditherBayer4 _ => ⟨0xFFFFFFFD, 0x00000051⟩
  | .ditherBayer8 _ => ⟨0xFFFFFFFD, 0x00000061⟩
  | .ditherClust4 _ => ⟨0xFFFFFFFD, 0x00000071⟩
  | .ctrlSet _ _ => ⟨0x00000001, 0x00000000⟩

end Sys2Proof
end

