-- ==== Sys2Proof/Config.lean ====
section
/-! DEFINITION. What an implementation or its platform fixes (R7, R40), and the free values: constants without a body. -/

namespace Sys2Proof

/-- PRODUCT_FORM (R7, R102): how a diffusion contribution is computed. -/
inductive ProductForm where
  | fractionConstant
  | mulThenDiv
  deriving DecidableEq, Repr

/-- The two kinds of engine access (R7 BusErr, R51). -/
inductive AccessKind where
  | read
  | write
  deriving DecidableEq, Repr

/-- The parameters of R7 that the model takes as arguments. No step changes them (R40). -/
structure Params where
  /-- MAX_WIDTH (R7); at most 65535, so that MAXDIM holds it (D12). -/
  maxWidth : BitVec 16
  /-- MAX_HEIGHT (R7). -/
  maxHeight : BitVec 16
  /-- PRODUCT_FORM (R102). -/
  productForm : ProductForm
  /-- REG_BASE, OPEN (R55). DESIGN CHOICE, log 33: the spec states no width for it; any natural number, so that the window may lie
  inside the memory port's 2^32 bytes, across their top, or outside them. -/
  regBase : Nat
  /-- PLATFORM_COHERENT, OPEN (R61, R63, R68). -/
  coherent : Bool
  /-- The (base, length) ranges of the platform's memory map that are no ordinary memory, OPEN (R57). -/
  devices : List (Nat × Nat)
  deriving DecidableEq, Repr

/-- REG_BASE at reset: OPEN in R7, so nothing is known of it. -/
opaque Config.regBase : Nat

/-- PLATFORM_COHERENT at reset: OPEN in R7. -/
opaque Config.platformCoherent : Bool

/-- The ranges that are no ordinary memory at reset: OPEN (R57). -/
opaque Config.devices : List (Nat × Nat)

/-- BusErr (R7): does the engine access numbered `draw`, of this kind at this address, get an error response? A draw per
access, under no law. Used where `busAnswers` has run out. -/
opaque Config.busErr (draw addr : Nat) (kind : AccessKind) : Bool

/-- Does the byte of this channel of a write that got an error response hold the new value (R161, U2)? -/
opaque Config.landed (draw channel : Nat) : Bool

/-- A buffer byte or an output that a ModelFault left unconstrained (R172). -/
opaque Config.freeByte (draw addr : Nat) : Byte

/-- What ERRBUF holds after a run: "no defined content" (R32). -/
opaque Config.freeErrbuf (draw : Nat) : List F64

/-- The parameters at reset: the defaults of R7, and the OPEN ones left open. -/
def Params.reset : Params where
  maxWidth := 4096
  maxHeight := 65535
  productForm := .fractionConstant
  regBase := Config.regBase
  coherent := Config.platformCoherent
  devices := Config.devices

end Sys2Proof
end

