-- ==== Sys2Proof/Machine/State.lean ====
section
/-! DEFINITION. The state of the machine as plain data, its stops, and the state right after reset (R15 to R42). -/

namespace Sys2Proof.Machine

open Sys2Proof

/-- Why the machine stops. -/
inductive Fault where
  /-- Raised by a pixel step whose pixel reaches beyond the 2^32 bytes of memory (R39, R44, R56). No accepted command makes such
  an access. Safe: the model stops and claims nothing of what follows. -/
  | noSuchAddress
  deriving DecidableEq, Repr

/-- Why the model gives no meaning. -/
inductive Refusal where
  /-- An instruction without a meaning. No arm answers it. Safe. -/
  | notModelled (mnemonic : String)
  deriving DecidableEq, Repr

/-- STATUS.ERRCODE (R154). Codes 8..15 are never reported. -/
inductive ErrCode where
  | none
  | rsvdBits
  | badAlgo
  | badDim
  | badLen
  | badAlign
  | badRange
  | busErr
  deriving DecidableEq, Repr

/-- The engine's control state (R31). -/
inductive Fsm where
  | idle
  | run
  deriving DecidableEq, Repr

/-- The host contract violations the model records (R172). -/
inductive ModelFault where
  | hostRace
  | bufferNotMemory
  deriving DecidableEq, Repr

/-- LAT, the latched configuration of a run (R37). -/
structure Latch where
  w : Word
  h : Word
  t : F64
  base : Word
  strategy : Strategy
  deriving DecidableEq, Repr

/-- The answer to the last access of the host or another agent (R69, R136). -/
inductive Response where
  /-- no access since reset -/
  | idle
  /-- a register read returned this word (R135) -/
  | data (w : Word)
  /-- a register write was taken by the bus -/
  | written
  /-- ErrorResponse (R50, R136) -/
  | errorResponse
  /-- a memory read returned this byte -/
  | memData (b : Byte)
  /-- a memory write was taken -/
  | memWritten
  /-- no value: a racing access (R62), or an access to a device of the platform, whose answer is the device's own (log 16) -/
  | noValue
  deriving DecidableEq, Repr

/-- A byte the host holds in a cache of the platform; `dirty` while its write is not visible at the memory port (R61, R68). -/
structure HostCopy where
  addr : Nat
  byte : Byte
  dirty : Bool
  deriving DecidableEq, Repr

/-- Memory: the bytes that are not zero, by rising address. The canonical form is `Memory.wf`. -/
abbrev Memory := List Host.Cell

/-- The state of the block, of the memory behind it, and of the agents around it. -/
structure State where
  /-- CTRL.IRQ_EN (R20) -/
  irqEn : Bool
  /-- CTRL.ALGO (R20) -/
  algo : BitVec 4
  /-- STATUS.BUSY (R21, R30) -/
  busy : Bool
  /-- STATUS.DONE (R21, R30) -/
  done : Bool
  /-- STATUS.ERR (R21, R30) -/
  err : Bool
  /-- STATUS.ERRCODE (R21, R154) -/
  errcode : ErrCode
  /-- WIDTH (R22) -/
  width : Word
  /-- HEIGHT (R23) -/
  height : Word
  /-- THRESHOLD (R24) -/
  threshold : Word
  /-- BUF_BASE (R25) -/
  bufBase : Word
  /-- BUF_LEN (R26) -/
  bufLen : Word
  /-- PROGRESS (R27) -/
  progress : Word
  /-- FAULT_ADDR (R28) -/
  faultAddr : Word
  /-- FSM (R31) -/
  fsm : Fsm
  /-- SCAN.P (R16) -/
  scanP : Nat
  /-- LAT (R37) -/
  lat : Latch
  /-- ERRBUF (R32) -/
  errbuf : List F64
  /-- the memory behind the memory port (R39) -/
  mem : Memory
  /-- the mark HOST_RACE (R172) -/
  hostRace : Bool
  /-- the mark BUFFER_NOT_MEMORY (R172) -/
  bufferNotMemory : Bool
  /-- the parameters of R7; no step changes them (R40) -/
  params : Params
  /-- the host's cached copies (R68); the model's own -/
  hostCache : List HostCopy
  /-- the moves of the agents still to come, oldest first (R163); the model's own -/
  inputs : List Event
  /-- the platform's answers to the next engine accesses, oldest first (R7 BusErr); the model's own -/
  busAnswers : List BusAnswer
  /-- how many free values have been drawn; the model's own -/
  draws : Nat
  /-- the answer to the last access; the model's own -/
  resp : Response
  deriving DecidableEq, Repr

/-- LAT at reset: unspecified in R42; DESIGN CHOICE, log 7. -/
def Latch.reset : Latch where
  w := 0
  h := 0
  t := 0
  base := 0
  strategy := .atk

/-- The machine right after reset (R42). ERRBUF (log 8), LAT (log 7) and the model's own fields (log 26) hold values the model
names. -/
def State.reset : State where
  irqEn := false
  algo := 0
  busy := false
  done := false
  err := false
  errcode := .none
  width := 0
  height := 0
  threshold := 0
  bufBase := 0
  bufLen := 0
  progress := 0
  faultAddr := 0
  fsm := .idle
  scanP := 0
  lat := .reset
  errbuf := []
  mem := []
  hostRace := false
  bufferNotMemory := false
  params := .reset
  hostCache := []
  inputs := []
  busAnswers := []
  draws := 0
  resp := .idle

end Sys2Proof.Machine
end

