-- ==== Sys2Proof/Machine/Flags.lean ====
section
/-! DEFINITION. The flags and the words they are read in: STATUS, CTRL, the interrupt output, and the writes that clear flags. -/

namespace Sys2Proof.Machine

open Sys2Proof

/-- The 4-bit code of an error (R154). -/
def ErrCode.code : ErrCode → BitVec 4
  | .none => 0
  | .rsvdBits => 1
  | .badAlgo => 2
  | .badDim => 3
  | .badLen => 4
  | .badAlign => 5
  | .badRange => 6
  | .busErr => 7

/-- A flag as the bit it is read in. -/
def flagBit (b : Bool) : BitVec 1 := BitVec.ofBool b

/-- The STATUS word (R21, R135): (ERRCODE << 8) | (ERR << 2) | (DONE << 1) | BUSY. -/
def State.statusWord (s : State) : Word :=
  (0 : BitVec 20) ++ s.errcode.code ++ (0 : BitVec 5) ++ flagBit s.err ++ flagBit s.done ++ flagBit s.busy

/-- The CTRL word (R20, R135): (ALGO << 4) | (IRQ_EN << 1). -/
def State.ctrlWord (s : State) : Word :=
  (0 : BitVec 24) ++ s.algo ++ (0 : BitVec 2) ++ flagBit s.irqEn ++ (0 : BitVec 1)

/-- The interrupt output (R165): a level, with no state of its own. -/
def State.irq (s : State) : Bool := s.irqEn && (s.done || s.err)

/-- Clear DONE (R143). -/
def State.ackDone (s : State) : State := { s with done := false }

/-- Clear ERR and ERRCODE (R21, R143): the acknowledgement of an error (R169). -/
def State.ackErr (s : State) : State := { s with err := false, errcode := .none }

/-- A STATUS write (R85, R143): bit 1 clears DONE, bit 2 clears ERR and ERRCODE, all other bits are ignored. -/
def State.writeStatus (d : Word) (s : State) : State :=
  let s₁ := if d.getLsbD 1 then s.ackDone else s
  if d.getLsbD 2 then s₁.ackErr else s₁

/-- The CTRL fields take new values (R141, R142). -/
def State.setCtrl (irqEn : Bool) (algo : BitVec 4) (s : State) : State := { s with irqEn := irqEn, algo := algo }

/-- What every issue clears (R141): DONE, ERR, ERRCODE, PROGRESS, FAULT_ADDR. -/
def State.clearForIssue (s : State) : State :=
  { s with done := false, err := false, errcode := .none, progress := 0, faultAddr := 0 }

end Sys2Proof.Machine
end

