-- ==== Sys2Proof/Machine/Memory.lean ====
section
/-! DEFINITION. Memory as a canonical list of cells: one byte read and written, and the runs of bytes built from them (R12, R39). -/

namespace Sys2Proof.Machine

open Sys2Proof

/-- The number of bytes of memory: addresses 0..2^32−1 (R39). -/
def memoryLimit : Nat := 2 ^ 32

/-- What an address that is not listed reads as: DESIGN CHOICE, log 4. -/
def Memory.background : Byte := 0

/-- Read one byte. -/
def Memory.read : Memory → Nat → Byte
  | [], _ => Memory.background
  | (k, v) :: rest, a => if k = a then v else Memory.read rest a

/-- A cell in front of a memory; none for the byte an unlisted address reads as. -/
def Memory.consCell (a : Nat) (b : Byte) (m : Memory) : Memory :=
  if b = Memory.background then m else (a, b) :: m

/-- Write one byte, keeping the canonical form. -/
def Memory.write : Memory → Nat → Byte → Memory
  | [], a, b => Memory.consCell a b []
  | (k, v) :: rest, a, b =>
    if a < k then Memory.consCell a b ((k, v) :: rest)
    else if a = k then Memory.consCell a b rest
    else (k, v) :: Memory.write rest a b

/-- Every listed address is above `lo`, they rise strictly, each is an address, and no cell holds the background byte. -/
def Memory.wfAbove : Option Nat → Memory → Bool
  | _, [] => true
  | lo, (a, b) :: rest =>
    (match lo with
      | none => true
      | some l => decide (l < a)) &&
    decide (a < memoryLimit) && b != Memory.background && Memory.wfAbove (some a) rest

/-- The canonical form of a memory. -/
def Memory.wf (m : Memory) : Bool := Memory.wfAbove none m

/-- MemRead(addr, 4) of R12, R51: the four bytes of a pixel, in address order. -/
def Memory.read4 (m : Memory) (a : Nat) : Byte × Byte × Byte × Byte :=
  (m.read a, m.read (a + 1), m.read (a + 2), m.read (a + 3))

/-- Write a byte if its mask bit is set (R12 MemWriteMasked). -/
def Memory.writeIf (m : Memory) (c : Bool) (a : Nat) (b : Byte) : Memory :=
  if c then m.write a b else m

/-- MemWriteMasked(addr, [r, g, b, _], mask) of R12, mask bit 3 clear (R51): bytes 0, 1 and 2, each under its mask bit. -/
def Memory.writeRgb (m : Memory) (a : Nat) (r g b : Byte) (mr mg mb : Bool) : Memory :=
  ((m.writeIf mr a r).writeIf mg (a + 1) g).writeIf mb (a + 2) b

/-- Put the byte `f a` at each of the `n` addresses a from `base` on. -/
def Memory.fill (m : Memory) (base : Nat) (f : Nat → Byte) : Nat → Memory
  | 0 => m
  | n + 1 => (Memory.fill m base f n).write (base + n) (f (base + n))

end Sys2Proof.Machine
end

