-- ==== Sys2Proof/Machine/F64.lean ====
section
/-! DEFINITION. Binary64 arithmetic as R10 defines it: exact rational arithmetic, then one rounding to nearest, ties to even, with
gradual underflow; and the helpers of R11. -/

namespace Sys2Proof.Machine

open Sys2Proof

/-- |v| -/
def absF64 (v : F64) : F64 := if v < 0 then -v else v

/-- 2^k for an integer k. -/
def pow2 : Int → Rat
  | .ofNat n => ((2 ^ n : Nat) : Rat)
  | .negSucc n => mkRat 1 (2 ^ (n + 1))

/-- floor(log2(a)) for a > 0. -/
def floorLog2 (a : Rat) : Int :=
  let k : Int := (Nat.log2 a.num.natAbs : Int) - (Nat.log2 a.den : Int)
  if a < pow2 k then k - 1 else k

/-- The integer nearest m; the even one when m is exactly halfway (R10). -/
def nearestEven (m : Rat) : Int :=
  let f := m.floor
  let r := m - (f : Rat)
  if r < 1 / 2 then f
  else if 1 / 2 < r then f + 1
  else if f % 2 = 0 then f
  else f + 1

/-- The exponent of R10, clamped at the subnormal boundary. -/
def f64Exponent (a : Rat) : Int := max (floorLog2 a) (-1022)

/-- The spacing of F64 near a > 0 (R10). -/
def f64Spacing (a : Rat) : Rat := pow2 (f64Exponent a - 52)

/-- rne64 of R10. Its overflow branch (r ≥ 2^1024) is never reached in this block (R116): there the model gives r (log 10). -/
def rne64 (v : Rat) : F64 :=
  if v = 0 then 0
  else
    let a := absF64 v
    let u := f64Spacing a
    let r := (nearestEven (a / u) : Rat) * u
    if v < 0 then -r else r

/-- v is a binary64 value: rounding leaves it as it is (R10). -/
def isF64 (v : Rat) : Bool := rne64 v == v

/-- fadd of R10. -/
def fadd (a b : F64) : F64 := rne64 (a + b)

/-- fsub of R10. -/
def fsub (a b : F64) : F64 := rne64 (a - b)

/-- fmul of R10. -/
def fmul (a b : F64) : F64 := rne64 (a * b)

/-- fdiv of R10, for b ≠ 0. -/
def fdiv (a b : F64) : F64 := rne64 (a / b)

/-- toF64 of R10: exact for |n| < 2^53. -/
def toF64 (n : Int) : F64 := (n : Rat)

/-- clamp of R11. -/
def clampF64 (v lo hi : F64) : F64 := if v < lo then lo else if hi < v then hi else v

/-- roundHalfAway of R11, on a non-negative value. -/
def roundHalfAway (s : F64) : Nat :=
  let f := s.floor
  if 1 / 2 ≤ s - (f : Rat) then (f + 1).toNat else f.toNat

/-- bin of R11. -/
def bin (c : Bool) : Nat := if c then 255 else 0

end Sys2Proof.Machine
end

