-- ==== Sys2Proof/Machine/Tables.lean ====
section
/-! DEFINITION. The ROMs of the block: the kernels (R97 to R100), the ordered matrices (R120 to R123), the luminance coefficients (R87). -/

namespace Sys2Proof.Machine

open Sys2Proof

/-- One kernel entry (R96): an offset and the weight num/den. -/
structure KernelEntry where
  dx : Int
  dy : Int
  num : Nat
  den : Nat
  deriving DecidableEq, Repr

/-- K_FS (R97). -/
def kernelFs : List KernelEntry :=
  [⟨1, 0, 7, 16⟩, ⟨-1, 1, 3, 16⟩, ⟨0, 1, 5, 16⟩, ⟨1, 1, 1, 16⟩]

/-- K_ATK (R98). -/
def kernelAtk : List KernelEntry :=
  [⟨1, 0, 1, 8⟩, ⟨2, 0, 1, 8⟩, ⟨-1, 1, 1, 8⟩, ⟨0, 1, 1, 8⟩, ⟨1, 1, 1, 8⟩, ⟨0, 2, 1, 8⟩]

/-- K_JJN (R99). -/
def kernelJjn : List KernelEntry :=
  [⟨1, 0, 7, 48⟩, ⟨2, 0, 5, 48⟩,
   ⟨-2, 1, 3, 48⟩, ⟨-1, 1, 5, 48⟩, ⟨0, 1, 7, 48⟩, ⟨1, 1, 5, 48⟩, ⟨2, 1, 3, 48⟩,
   ⟨-2, 2, 1, 48⟩, ⟨-1, 2, 3, 48⟩, ⟨0, 2, 5, 48⟩, ⟨1, 2, 3, 48⟩, ⟨2, 2, 1, 48⟩]

/-- K_STK (R100). -/
def kernelStk : List KernelEntry :=
  [⟨1, 0, 8, 42⟩, ⟨2, 0, 4, 42⟩,
   ⟨-2, 1, 2, 42⟩, ⟨-1, 1, 4, 42⟩, ⟨0, 1, 8, 42⟩, ⟨1, 1, 4, 42⟩, ⟨2, 1, 2, 42⟩,
   ⟨-2, 2, 1, 42⟩, ⟨-1, 2, 2, 42⟩, ⟨0, 2, 4, 42⟩, ⟨1, 2, 2, 42⟩, ⟨2, 2, 1, 42⟩]

/-- M_B2 (R120). -/
def matrixB2 : List (List Nat) :=
  [[0, 2],
   [3, 1]]

/-- M_B4 (R121). -/
def matrixB4 : List (List Nat) :=
  [[0, 8, 2, 10],
   [12, 4, 14, 6],
   [3, 11, 1, 9],
   [15, 7, 13, 5]]

/-- M_B8 (R122). -/
def matrixB8 : List (List Nat) :=
  [[0, 32, 8, 40, 2, 34, 10, 42],
   [48, 16, 56, 24, 50, 18, 58, 26],
   [12, 44, 4, 36, 14, 46, 6, 38],
   [60, 28, 52, 20, 62, 30, 54, 22],
   [3, 35, 11, 43, 1, 33, 9, 41],
   [51, 19, 59, 27, 49, 17, 57, 25],
   [15, 47, 7, 39, 13, 45, 5, 37],
   [63, 31, 55, 23, 61, 29, 53, 21]]

/-- M_C4 (R123). -/
def matrixC4 : List (List Nat) :=
  [[12, 5, 6, 13],
   [4, 0, 1, 7],
   [11, 3, 2, 8],
   [15, 10, 9, 14]]

/-- The diffusion family: codes 0..3 (R73). -/
def isDiffusion : Strategy → Bool
  | .atk => true
  | .fs => true
  | .jjn => true
  | .stk => true
  | .bayer2 => false
  | .bayer4 => false
  | .bayer8 => false
  | .clust4 => false

/-- KERNEL(ALGO) (R108); the ordered family has none (R128). -/
def kernelOf : Strategy → List KernelEntry
  | .atk => kernelAtk
  | .fs => kernelFs
  | .jjn => kernelJjn
  | .stk => kernelStk
  | .bayer2 => []
  | .bayer4 => []
  | .bayer8 => []
  | .clust4 => []

/-- MAT(ALGO) (R119); the diffusion family has none. -/
def matrixOf : Strategy → List (List Nat)
  | .atk => []
  | .fs => []
  | .jjn => []
  | .stk => []
  | .bayer2 => matrixB2
  | .bayer4 => matrixB4
  | .bayer8 => matrixB8
  | .clust4 => matrixC4

/-- side(ALGO), the N of the matrix (R119, R128). -/
def sideOf : Strategy → Nat
  | .atk => 0
  | .fs => 0
  | .jjn => 0
  | .stk => 0
  | .bayer2 => 2
  | .bayer4 => 4
  | .bayer8 => 8
  | .clust4 => 4

/-- MAT(ALGO)[y mod N][x mod N], the row index first (R119, R125, C10). -/
def matrixValue (a : Strategy) (x y : Nat) : Nat :=
  (((matrixOf a)[y % sideOf a]?.getD [])[x % sideOf a]?).getD 0

/-- C_R (R87): the binary64 value nearest 0.299. -/
def coefR : F64 := mkRat 5386305154335113 (2 ^ 54)

/-- C_G (R87): the binary64 value nearest 0.587. -/
def coefG : F64 := mkRat 2643612981266481 (2 ^ 52)

/-- C_B (R87): the binary64 value nearest 0.114. -/
def coefB : F64 := mkRat 8214565720323785 (2 ^ 56)

end Sys2Proof.Machine
end

