-- ==== Sys2Proof/Machine/Operands.lean ====
section
/-! DEFINITION. The operands of a command: assembled from the registers at issue (R74, R75), checked (R157 to R159), latched at
acceptance (R37), and used by the run (R17, R44). -/

namespace Sys2Proof.Machine

open Sys2Proof

/-- W = zext_32(reg[WIDTH]) (R75). -/
def State.argW (s : State) : Nat := s.width.toNat

/-- H = zext_32(reg[HEIGHT]) (R75). -/
def State.argH (s : State) : Nat := s.height.toNat

/-- BASE = zext_32(reg[BUF_BASE]) (R75). -/
def State.argBase (s : State) : Nat := s.bufBase.toNat

/-- LEN = zext_32(reg[BUF_LEN]) (R75). -/
def State.argLen (s : State) : Nat := s.bufLen.toNat

/-- T = toF64(sext_32(reg[THRESHOLD])) (R24, R74). -/
def thresholdF64 (t : Word) : F64 := toF64 t.toInt

/-- BAD_DIM (R157). -/
def State.badDim (s : State) : Bool :=
  s.argW == 0 || decide (s.params.maxWidth.toNat < s.argW) || s.argH == 0 || decide (s.params.maxHeight.toNat < s.argH)

/-- BAD_LEN (R158), in unbounded integers. -/
def State.badLen (s : State) : Bool := s.argLen != s.argW * s.argH * 4

/-- BAD_ALIGN (R49, R159). -/
def State.badAlign (s : State) : Bool := s.argBase % 4 != 0

/-- BAD_RANGE (R56, R159), in unbounded integers. -/
def State.badRange (s : State) : Bool := decide (2 ^ 32 < s.argBase + s.argLen)

/-- The checks of the register operands, in the order of R141 and R162: the first that fails. -/
def State.argError (s : State) : Option ErrCode :=
  if s.badDim then some .badDim
  else if s.badLen then some .badLen
  else if s.badAlign then some .badAlign
  else if s.badRange then some .badRange
  else none

/-- Do two address ranges share a byte? -/
def rangesOverlap (base₁ len₁ base₂ len₂ : Nat) : Bool :=
  decide (0 < len₁ ∧ 0 < len₂ ∧ base₁ < base₂ + len₂ ∧ base₂ < base₁ + len₁)

/-- REG_WINDOW (R7, R18). -/
def regWindow : Nat := 0x40

/-- Is a range of addresses ordinary memory: clear of the register window and of every device of the platform (R57)? -/
def ordinaryRange (c : Params) (base len : Nat) : Bool :=
  !rangesOverlap base len c.regBase regWindow && c.devices.all (fun d => !rangesOverlap base len d.1 d.2)

/-- Is the buffer that the registers describe ordinary memory (R57, R183)? -/
def State.bufferOrdinary (s : State) : Bool := ordinaryRange s.params s.argBase (4 * (s.argW * s.argH))

/-- What an accepted command latches (R37, R144). -/
def State.latched (s : State) (a : Strategy) : Latch where
  w := s.width
  h := s.height
  t := thresholdF64 s.threshold
  base := s.bufBase
  strategy := a

/-- The latched W (R37). -/
def Latch.wN (l : Latch) : Nat := l.w.toNat

/-- The latched H (R37). -/
def Latch.hN (l : Latch) : Nat := l.h.toNat

/-- W×H, the number of pixels of the run (R17). -/
def Latch.pixels (l : Latch) : Nat := l.wN * l.hN

/-- addr(p, 0) = BASE + 4×p (R44). -/
def Latch.pixelAddr (l : Latch) (p : Nat) : Nat := l.base.toNat + 4 * p

/-- x = p mod W (R17). -/
def Latch.xOf (l : Latch) (p : Nat) : Nat := p % l.wN

/-- y = p div W (R17). -/
def Latch.yOf (l : Latch) (p : Nat) : Nat := p / l.wN

/-- Is the byte address in the run's buffer [BASE, BASE + 4×W×H) (R45, R62)? -/
def Latch.inBuffer (l : Latch) (a : Nat) : Bool :=
  decide (l.base.toNat ≤ a ∧ a < l.base.toNat + 4 * l.pixels)

end Sys2Proof.Machine
end

