-- ==== Sys2Proof/Machine/Ops.lean ====
section
/-! DEFINITION. The named operations the meanings share: taking an error, recording a model fault, the memory port, issuing a command. -/

namespace Sys2Proof.Machine

open Sys2Proof

/-- The outcome of a step of this machine. -/
abbrev Out := Host.Outcome State Fault Refusal

/-- The next event leaves the queue. -/
def State.withInputs (rest : List Event) (s : State) : State := { s with inputs := rest }

/-- TAKING AN ERROR (R13, R160, R161, R168): the block's only exception entry. ERR and ERRCODE record it, BUSY and FSM drop. There is
no handler to go to; `State.ackErr` acknowledges it (R169). -/
def State.raiseError (c : ErrCode) (s : State) : State :=
  { s with busy := false, fsm := .idle, err := true, errcode := c }

/-- Does the state carry a ModelFault mark (R172)? -/
def State.marked (s : State) : Bool := s.hostRace || s.bufferNotMemory

/-- Set a mark (R172); no operation clears one. -/
def State.setMark (f : ModelFault) (s : State) : State :=
  match f with
  | .hostRace => { s with hostRace := true }
  | .bufferNotMemory => { s with bufferNotMemory := true }

/-- The buffer of the run becomes unconstrained (R172), in memory and in the host's copies of it: free values. -/
def State.havocBuffer (s : State) : State :=
  { s with
    mem := s.mem.fill s.lat.base.toNat (Config.freeByte s.draws) (4 * s.lat.pixels)
    hostCache := s.hostCache.map (fun c => if s.lat.inBuffer c.addr then { c with byte := Config.freeByte s.draws c.addr } else c)
    draws := s.draws + 1 }

/-- Record a ModelFault (R13, R172): the mark, and the buffer unconstrained. -/
def State.recordFault (f : ModelFault) (s : State) : State := (s.setMark f).havocBuffer

/-- The platform's answer to the next engine access (R7 BusErr): the next of the queue, or a free one (log 5). -/
def State.nextAnswer (kind : AccessKind) (addr : Nat) (s : State) : BusAnswer :=
  match s.busAnswers with
  | b :: _ => b
  | [] =>
    if Config.busErr s.draws addr kind then
      .error (Config.landed s.draws 0) (Config.landed s.draws 1) (Config.landed s.draws 2)
    else .ok

/-- The answer is used up. -/
def State.dropAnswer (s : State) : State :=
  match s.busAnswers with
  | _ :: rest => { s with busAnswers := rest }
  | [] => { s with draws := s.draws + 1 }

/-- MemRead(addr, 4) of the engine (R12, R51): the four bytes, or none for BusError. -/
def engineRead (addr : Nat) (s : State) : Option (Byte × Byte × Byte × Byte) × State :=
  match s.nextAnswer .read addr with
  | .ok => (some (s.mem.read4 addr), s.dropAnswer)
  | .error _ _ _ => (none, s.dropAnswer)

/-- The bytes a pixel write stores: `out` three times (R107, R127); free bytes in a state that carries a ModelFault mark, where the
outputs are unconstrained (R172). -/
def State.storedBytes (addr : Nat) (out : Byte) (s : State) : Byte × Byte × Byte :=
  if s.marked then
    (Config.freeByte s.draws addr, Config.freeByte s.draws (addr + 1), Config.freeByte s.draws (addr + 2))
  else (out, out, out)

/-- The draw of `State.storedBytes` is used up. -/
def State.useStoredBytes (s : State) : State := if s.marked then { s with draws := s.draws + 1 } else s

/-- Write the R, G and B bytes of a pixel, each under its mask bit; the A byte is never written (R51, R52). -/
def State.writePixel (addr : Nat) (px : Byte × Byte × Byte) (mr mg mb : Bool) (s : State) : State :=
  { s with mem := s.mem.writeRgb addr px.1 px.2.1 px.2.2 mr mg mb }

/-- MemWriteMasked(addr, [out, out, out, 0], 0b0111) of the engine (R12, R51): true when it succeeds; on BusError each byte is old or
new as the platform's answer says (R161, U2). -/
def engineWrite (addr : Nat) (out : Byte) (s : State) : Bool × State :=
  let px := s.dropAnswer.storedBytes addr out
  match s.nextAnswer .write addr with
  | .ok => (true, s.dropAnswer.useStoredBytes.writePixel addr px true true true)
  | .error newR newG newB => (false, s.dropAnswer.useStoredBytes.writePixel addr px newR newG newB)

/-- accept(a) of R144, without the check of R57: latch, clear ERRBUF for the diffusion family, start. -/
def State.startRun (a : Strategy) (s : State) : State :=
  { s with
    lat := s.latched a
    errbuf := if isDiffusion a then List.replicate (s.argW * s.argH) 0 else s.errbuf
    scanP := 0
    busy := true
    fsm := .run }

/-- accept(a) of R144. A run over a buffer that is not ordinary memory is marked BUFFER_NOT_MEMORY (R57, R172). -/
def State.accept (a : Strategy) (s : State) : State :=
  if s.bufferOrdinary then s.startRun a else (s.startRun a).recordFault .bufferNotMemory

/-- reject(c) of R141, R160. -/
def State.reject (c : ErrCode) (s : State) : State := s.raiseError c

/-- What an issue does before its checks (R141). -/
def State.beginIssue (irqEn : Bool) (algo : BitVec 4) (s : State) : State := (s.setCtrl irqEn algo).clearForIssue

/-- Issue the command of a strategy (R141, for a word that passes the checks of its own bits): ignored while BUSY = 1 (R140), else
rejected by the first failing check of the operands, or accepted. -/
def issueCommand (a : Strategy) (irqEn : Bool) (s : State) : Out :=
  if s.busy then .next s
  else
    match (s.beginIssue irqEn a.code).argError with
    | some c => .next ((s.beginIssue irqEn a.code).reject c)
    | none => .next ((s.beginIssue irqEn a.code).accept a)

/-- The error of a CTRL word that is no instruction (R77, R78, R155, R156). -/
def wordErrCode : WordError → ErrCode
  | .rsvdBits => .rsvdBits
  | .badAlgo => .badAlgo

/-- Issue an illegal command word (R77, R78, R141): ignored while BUSY = 1, else rejected with the decoder's reason. -/
def issueIllegal (d : Word) (e : WordError) (s : State) : Out :=
  if s.busy then .next s
  else .next ((s.beginIssue (irqBit d) (algoField d)).reject (wordErrCode e))

end Sys2Proof.Machine
end

