-- ==== Sys2Proof/Machine/Control.lean ====
section
/-! DEFINITION. CTRL.SET (R79, R142). -/

namespace Sys2Proof.Machine

open Sys2Proof

/-- CTRL.SET (R142): the CTRL fields take the values of the word and nothing else changes; ignored while BUSY = 1 (R140). -/
def execCtrlSet (irqEn : Bool) (algo : BitVec 4) (s : State) : Out :=
  if s.busy then .next s else .next (s.setCtrl irqEn algo)

end Sys2Proof.Machine
end

