-- ==== Sys2Proof/Machine/Luminance.lean ====
section
/-! DEFINITION. The luminance weighter (R86 to R94): one function, without state, that every command calls. -/

namespace Sys2Proof.Machine

open Sys2Proof

/-- The weighted sum of R88, left to right, each operation rounded. -/
def lumSum (r g b : Byte) : F64 :=
  fadd (fadd (fmul coefR (toF64 r.toNat)) (fmul coefG (toF64 g.toNat))) (fmul coefB (toF64 b.toNat))

/-- lum(R, G, B) of R86, R89. -/
def lum (r g b : Byte) : Nat := roundHalfAway (lumSum r g b)

end Sys2Proof.Machine
end

