-- ==== Sys2Proof/Machine/Diffusion.lean ====
section
/-! DEFINITION. The error-diffusion family: the diffusion core (R95 to R109) and the meanings of DITHER.ATK, DITHER.FS, DITHER.JJN
and DITHER.STK (R110 to R113). -/

namespace Sys2Proof.Machine

open Sys2Proof

/-- FRAC(num, den) of R101. -/
def frac (num den : Nat) : F64 := fdiv (toF64 num) (toF64 den)

/-- contrib(e, k) of R102. -/
def contrib (form : ProductForm) (e : F64) (k : KernelEntry) : F64 :=
  match form with
  | .fractionConstant => fmul e (frac k.num k.den)
  | .mulThenDiv => fdiv (fmul e (toF64 k.num)) (toF64 k.den)

/-- adjustedGray of R104: the luminance plus the accumulated error, clamped. -/
def adjustedGray (lum : Nat) (e0 : F64) : F64 := clampF64 (fadd (toF64 lum) e0) 0 255

/-- out of R105, and of R127 with g = L: 255 when g > T. -/
def binarize (g t : F64) : Nat := bin (decide (t < g))

/-- The quantization error of R106. -/
def quantError (g : F64) (out : Nat) : F64 := fsub g (toF64 out)

/-- The index of the pixel a kernel entry reaches from (x, y); none outside the image (R108: the test is on the coordinates). -/
def neighbour (w h x y : Nat) (k : KernelEntry) : Option Nat :=
  let nx : Int := x + k.dx
  let ny : Int := y + k.dy
  if 0 ≤ nx ∧ nx < w ∧ 0 ≤ ny ∧ ny < h then some (ny * w + nx).toNat else none

/-- One entry of the loop of R108. -/
def distributeEntry (form : ProductForm) (w h x y : Nat) (e : F64) (buf : List F64) (k : KernelEntry) : List F64 :=
  match neighbour w h x y k with
  | some q => buf.modify q (fun v => fadd v (contrib form e k))
  | none => buf

/-- The loop of R108, in table order. -/
def distribute (form : ProductForm) (w h x y : Nat) (e : F64) (ks : List KernelEntry) (buf : List F64) : List F64 :=
  ks.foldl (distributeEntry form w h x y e) buf

/-- What a pixel step's computation ends in (R145): OK, or FAIL at an address. -/
inductive PixelResult where
  | ok (s : State)
  | fail (addr : Nat) (s : State)
  deriving DecidableEq, Repr

/-- ERRBUF[p] (R104). -/
def State.errAt (s : State) (p : Nat) : F64 := (s.errbuf[p]?).getD 0

/-- The distribution of a pixel's error into ERRBUF (R108). -/
def State.diffuse (p : Nat) (e : F64) (s : State) : State :=
  { s with
    errbuf := distribute s.params.productForm s.lat.wN s.lat.hN (s.lat.xOf p) (s.lat.yOf p) e (kernelOf s.lat.strategy) s.errbuf }

/-- diffuse_pixel(p), the per-pixel function of R104 to R108. -/
def diffusePixel (p : Nat) (s : State) : PixelResult :=
  let a := s.lat.pixelAddr p
  match engineRead a s with
  | (none, s₁) => .fail a s₁
  | (some (r, g, b, _), s₁) =>
    let gray := adjustedGray (lum r g b) (s₁.errAt p)
    let out := binarize gray s₁.lat.t
    match engineWrite a (BitVec.ofNat 8 out) s₁ with
    | (false, s₂) => .fail a s₂
    | (true, s₂) => .ok (s₂.diffuse p (quantError gray out))

/-- DITHER.ATK (R110). -/
def execDitherAtk (irqEn : Bool) (s : State) : Out := issueCommand .atk irqEn s

/-- DITHER.FS (R111). -/
def execDitherFs (irqEn : Bool) (s : State) : Out := issueCommand .fs irqEn s

/-- DITHER.JJN (R112). -/
def execDitherJjn (irqEn : Bool) (s : State) : Out := issueCommand .jjn irqEn s

/-- DITHER.STK (R113). -/
def execDitherStk (irqEn : Bool) (s : State) : Out := issueCommand .stk irqEn s

end Sys2Proof.Machine
end

