-- ==== Sys2Proof/Machine/Ordered.lean ====
section
/-! DEFINITION. The ordered family: the tile lookup and its arithmetic (R119 to R128) and the meanings of DITHER.BAYER2, DITHER.BAYER4,
DITHER.BAYER8 and DITHER.CLUST4 (R129 to R132). -/

namespace Sys2Proof.Machine

open Sys2Proof

/-- normalized of R126. -/
def normalized (n mv : Nat) : F64 := fmul (fdiv (toF64 mv) (toF64 ((n : Int) * n - 1))) 255

/-- adjT of R126. -/
def adjustedThreshold (t : F64) (n mv : Nat) : F64 := fadd t (fsub (normalized n mv) (255 / 2))

/-- out of R127. -/
def orderedOut (a : Strategy) (t : F64) (x y lum : Nat) : Nat :=
  binarize (toF64 lum) (adjustedThreshold t (sideOf a) (matrixValue a x y))

/-- ordered_pixel(p) of R128. -/
def orderedPixel (p : Nat) (s : State) : PixelResult :=
  let a := s.lat.pixelAddr p
  match engineRead a s with
  | (none, s₁) => .fail a s₁
  | (some (r, g, b, _), s₁) =>
    let out := orderedOut s₁.lat.strategy s₁.lat.t (s₁.lat.xOf p) (s₁.lat.yOf p) (lum r g b)
    match engineWrite a (BitVec.ofNat 8 out) s₁ with
    | (false, s₂) => .fail a s₂
    | (true, s₂) => .ok s₂

/-- DITHER.BAYER2 (R129). -/
def execDitherBayer2 (irqEn : Bool) (s : State) : Out := issueCommand .bayer2 irqEn s

/-- DITHER.BAYER4 (R130). -/
def execDitherBayer4 (irqEn : Bool) (s : State) : Out := issueCommand .bayer4 irqEn s

/-- DITHER.BAYER8 (R131). -/
def execDitherBayer8 (irqEn : Bool) (s : State) : Out := issueCommand .bayer8 irqEn s

/-- DITHER.CLUST4 (R132). -/
def execDitherClust4 (irqEn : Bool) (s : State) : Out := issueCommand .clust4 irqEn s

end Sys2Proof.Machine
end

