-- ==== Sys2Proof/Machine/Dispatch.lean ====
section
/-! DEFINITION. One arm per instruction. -/

namespace Sys2Proof.Machine

open Sys2Proof

def exec (i : Instr) (s : State) : Host.Outcome State Fault Refusal :=
  match i with
  | .ditherAtk irqEn => Sys2Proof.Machine.execDitherAtk irqEn s
  | .ditherFs irqEn => Sys2Proof.Machine.execDitherFs irqEn s
  | .ditherJjn irqEn => Sys2Proof.Machine.execDitherJjn irqEn s
  | .ditherStk irqEn => Sys2Proof.Machine.execDitherStk irqEn s
  | .ditherBayer2 irqEn => Sys2Proof.Machine.execDitherBayer2 irqEn s
  | .ditherBayer4 irqEn => Sys2Proof.Machine.execDitherBayer4 irqEn s
  | .ditherBayer8 irqEn => Sys2Proof.Machine.execDitherBayer8 irqEn s
  | .ditherClust4 irqEn => Sys2Proof.Machine.execDitherClust4 irqEn s
  | .ctrlSet irqEn algo => Sys2Proof.Machine.execCtrlSet irqEn algo s

end Sys2Proof.Machine
end

