-- ==== Sys2Proof/Machine/Engine.lean ====
section
/-! DEFINITION. The ENGINE's step (R145), completion (R146) and abort (R161). -/

namespace Sys2Proof.Machine

open Sys2Proof

/-- After a diffusion run ERRBUF has no defined content (R32): a free value. Ordered runs do not touch it. -/
def State.releaseErrbuf (s : State) : State :=
  if isDiffusion s.lat.strategy then { s with errbuf := Config.freeErrbuf s.draws, draws := s.draws + 1 } else s

/-- complete() of R146. -/
def State.complete (s : State) : State :=
  { s.releaseErrbuf with busy := false, fsm := .idle, done := true }

/-- abort(p, addr) of R161: BUS_ERR is taken, FAULT_ADDR records the pixel; PROGRESS and SCAN.P keep p. -/
def State.abort (addr : Nat) (s : State) : State :=
  { s.releaseErrbuf.raiseError .busErr with faultAddr := BitVec.ofNat 32 addr }

/-- The scan advances past pixel p (R145). -/
def State.advance (p : Nat) (s : State) : State :=
  { s with scanP := p + 1, progress := BitVec.ofNat 32 (p + 1) }

/-- The end of a pixel step (R145). -/
def finishPixel (p : Nat) : PixelResult → State
  | .ok s => if p + 1 = s.lat.pixels then (s.advance p).complete else s.advance p
  | .fail addr s => s.abort addr

/-- The computation of a pixel step, by the family of the latched strategy (R145). -/
def computePixel (p : Nat) (s : State) : PixelResult :=
  if isDiffusion s.lat.strategy then diffusePixel p s else orderedPixel p s

/-- Is a pixel step enabled (R145)? -/
def State.engineEnabled (s : State) : Bool := s.fsm == .run && decide (s.scanP < s.lat.pixels)

/-- The ENGINE's move (R145): one pixel step where one is enabled, else nothing. -/
def pixelStep (s : State) : Out :=
  if s.engineEnabled then
    if s.lat.pixelAddr s.scanP + 4 ≤ memoryLimit then .next (finishPixel s.scanP (computePixel s.scanP s))
    else .fault .noSuchAddress
  else .next s

end Sys2Proof.Machine
end

