-- ==== Sys2Proof/Machine/HostPort.lean ====
section
/-! DEFINITION. The host's register transactions (R135 to R143), apart from the instructions written to CTRL. -/

namespace Sys2Proof.Machine

open Sys2Proof

/-- The register at an offset (R18). -/
def regAt (offset : Nat) : Option RegName :=
  match offset with
  | 0x00 => some .id
  | 0x04 => some .version
  | 0x08 => some .caps
  | 0x0C => some .ctrl
  | 0x10 => some .status
  | 0x14 => some .width
  | 0x18 => some .height
  | 0x1C => some .threshold
  | 0x20 => some .bufBase
  | 0x24 => some .bufLen
  | 0x28 => some .progress
  | 0x2C => some .faultAddr
  | 0x30 => some .maxDim
  | 0x34 => some .reserved34
  | 0x38 => some .reserved38
  | 0x3C => some .reserved3C
  | _ => none

/-- The offset of a register (R18). -/
def regOffset : RegName → Word
  | .id => 0x00
  | .version => 0x04
  | .caps => 0x08
  | .ctrl => 0x0C
  | .status => 0x10
  | .width => 0x14
  | .height => 0x18
  | .threshold => 0x1C
  | .bufBase => 0x20
  | .bufLen => 0x24
  | .progress => 0x28
  | .faultAddr => 0x2C
  | .maxDim => 0x30
  | .reserved34 => 0x34
  | .reserved38 => 0x38
  | .reserved3C => 0x3C

/-- The value of a register (R19 to R29, R135): reserved and write-only bits read 0, a read changes nothing. -/
def State.regRead (s : State) : RegName → Word
  | .id => 0x44495448
  | .version => 0x00010000
  | .caps => 0x000000FF
  | .ctrl => s.ctrlWord
  | .status => s.statusWord
  | .width => s.width
  | .height => s.height
  | .threshold => s.threshold
  | .bufBase => s.bufBase
  | .bufLen => s.bufLen
  | .progress => s.progress
  | .faultAddr => s.faultAddr
  | .maxDim => s.params.maxHeight ++ s.params.maxWidth
  | .reserved34 => 0
  | .reserved38 => 0
  | .reserved3C => 0

/-- A write to a register other than CTRL: configuration registers take the word while BUSY = 0 (R139), STATUS clears flags (R143),
read-only and reserved registers ignore it (R137, R138). CTRL writes go through the decoder (`Step`). -/
def State.regWrite (r : RegName) (d : Word) (s : State) : State :=
  match r with
  | .width => if s.busy then s else { s with width := d }
  | .height => if s.busy then s else { s with height := d }
  | .threshold => if s.busy then s else { s with threshold := d }
  | .bufBase => if s.busy then s else { s with bufBase := d }
  | .bufLen => if s.busy then s else { s with bufLen := d }
  | .status => s.writeStatus d
  | .id => s
  | .version => s
  | .caps => s
  | .ctrl => s
  | .progress => s
  | .faultAddr => s
  | .maxDim => s
  | .reserved34 => s
  | .reserved38 => s
  | .reserved3C => s

/-- The register a legal access names (R136): 32 bits wide, at a multiple of 4 in 0x00..0x3C. -/
def legalReg (size : Size) (offset : Word) : Option RegName :=
  match size with
  | .word => regAt offset.toNat
  | .byte => none
  | .half => none
  | .double => none

/-- The answer of the host bus is left for the host. -/
def State.respond (r : Response) (s : State) : State := { s with resp := r }

/-- The data of a legal write to CTRL (R70); none for every other access. -/
def ctrlWrite : Access → Option Word
  | .rd _ _ => none
  | .wr size offset d => if legalReg size offset = some .ctrl then some d else none

/-- A register access that is no CTRL write (R135 to R139, R143); an illegal one gets ErrorResponse and has no other effect (R136). -/
def hostAccess (a : Access) (s : State) : State :=
  match a with
  | .rd size offset =>
    match legalReg size offset with
    | some r => s.respond (.data (s.regRead r))
    | none => s.respond .errorResponse
  | .wr size offset d =>
    match legalReg size offset with
    | some r => (s.regWrite r d).respond .written
    | none => s.respond .errorResponse

end Sys2Proof.Machine
end

