-- ==== Sys2Proof/Machine/HostMemory.lean ====
section
/-! DEFINITION. Memory accesses of the host and of other agents (R5, R62, R172), the host's cached copies when the platform is not
coherent (R61, R63, R68, log 15), and the reset input (R178 to R180). -/

namespace Sys2Proof.Machine

open Sys2Proof

/-- The byte address of a memory access. -/
def opAddr : MemOp → Nat
  | .read a => a.toNat
  | .write a _ => a.toNat

/-- The host's copy of a byte. -/
def findCopy (a : Nat) : List HostCopy → Option HostCopy
  | [] => none
  | c :: rest => if c.addr = a then some c else findCopy a rest

/-- The list without its copies of a byte. -/
def dropCopy (a : Nat) (cs : List HostCopy) : List HostCopy := cs.filter (fun c => c.addr != a)

/-- Does an access at this address break the exclusion of R62: the engine is running and the byte is in its buffer? -/
def State.races (s : State) (a : Nat) : Bool := s.busy && s.lat.inBuffer a

/-- Is the address in the register window (R18)? -/
def State.inWindow (s : State) (a : Nat) : Bool := rangesOverlap a 1 s.params.regBase regWindow

/-- Is the address in a device of the platform (R57)? -/
def State.inDevice (s : State) (a : Nat) : Bool := s.params.devices.any (fun d => rangesOverlap a 1 d.1 d.2)

/-- Do this agent's accesses go through the host's caches? Only the host's, and only where the platform is not coherent (R7, R68). -/
def State.cached (who : Requester) (s : State) : Bool := who == .host && !s.params.coherent

/-- A read of ordinary memory that races with nothing. A cached host read hits a copy, or fills one (log 15). -/
def readMem (who : Requester) (a : Nat) (s : State) : State :=
  if s.cached who then
    match findCopy a s.hostCache with
    | some c => s.respond (.memData c.byte)
    | none => { s with hostCache := ⟨a, s.mem.read a, false⟩ :: s.hostCache, resp := .memData (s.mem.read a) }
  else s.respond (.memData (s.mem.read a))

/-- A write of ordinary memory that races with nothing. A cached host write is held as a dirty copy until `clean` (R61, log 15). -/
def writeMem (who : Requester) (a : Nat) (b : Byte) (s : State) : State :=
  if s.cached who then { s with hostCache := ⟨a, b, true⟩ :: dropCopy a s.hostCache, resp := .memWritten }
  else { s with mem := s.mem.write a b, resp := .memWritten }

/-- A memory access by the host or another agent. In the buffer of a run it is a HOST_RACE, recorded, and gets no value (R62, R172); at
the register window it is a one-byte access, which gets ErrorResponse (R50); at a device of the platform it is no concern of the
block (R58, R174): nothing the state holds changes, and the device's answer is not modelled (log 16). DESIGN CHOICE, log 32: once BUSY
is 0, a host access to the buffer is an ordinary access, which sees memory as the engine left it, even before a STATUS read has returned
BUSY = 0 (R64 and R185 exclude the host until that read). -/
def memAccess (who : Requester) (op : MemOp) (s : State) : Out :=
  if s.races (opAddr op) then .next ((s.recordFault .hostRace).respond .noValue)
  else if s.inWindow (opAddr op) then .next (s.respond .errorResponse)
  else if s.inDevice (opAddr op) then .next (s.respond .noValue)
  else
    match op with
    | .read _ => .next (readMem who (opAddr op) s)
    | .write _ b => .next (writeMem who (opAddr op) b s)

/-- Cache maintenance before START (R61, R68): a dirty copy of the byte is written to memory and stays as a clean copy. Inside a run's
buffer this is a write of the host, a HOST_RACE (R62). -/
def cleanCopy (a : Nat) (s : State) : State :=
  match findCopy a s.hostCache with
  | none => s
  | some c =>
    if c.dirty then
      if s.races a then s.recordFault .hostRace
      else { s with mem := s.mem.write a c.byte, hostCache := ⟨a, c.byte, false⟩ :: dropCopy a s.hostCache }
    else s

/-- Cache maintenance after completion (R63, R68): a clean copy of the byte is dropped, so that the next read sees memory. -/
def discardCopy (a : Nat) (s : State) : State :=
  match findCopy a s.hostCache with
  | none => s
  | some c => if c.dirty then s else { s with hostCache := dropCopy a s.hostCache }

/-- The reset input (R178 to R180): every item of R42 takes its reset value; memory, the parameters, the ModelFault marks and what
lies outside the block stay. -/
def State.resetInput (s : State) : State :=
  { State.reset with
    mem := s.mem
    hostRace := s.hostRace
    bufferNotMemory := s.bufferNotMemory
    params := s.params
    hostCache := s.hostCache
    inputs := s.inputs
    busAnswers := s.busAnswers
    draws := s.draws }

end Sys2Proof.Machine
end

