-- ==== Sys2Proof/Machine/Schedule.lean ====
section
/-! DEFINITION. What each agent's move does (R5, R6): the host's accesses, the instructions written to CTRL among them, the memory
accesses of the host and others, the ENGINE's turn, and reset. -/

namespace Sys2Proof.Machine

open Sys2Proof

/-- A word written to CTRL (R70, R80, R81): the instruction it decodes to, or the rejection of an illegal command word. The host's bus
takes the write in either case. -/
def ctrlStep (d : Word) (s : State) : Out :=
  match decodeWord d with
  | .ok i => exec i (s.respond .written)
  | .error e => issueIllegal d e (s.respond .written)

/-- A host access to the register window (R135 to R143). DESIGN CHOICE, log 34: it is this and no more also while BUSY = 1 where the
window overlaps the run's buffer: no HOST_RACE is recorded, and a read is answered (R172's address words and R62 would make it a race;
such a run carries BUFFER_NOT_MEMORY already). -/
def accessStep (a : Access) (s : State) : Out :=
  match ctrlWrite a with
  | some d => ctrlStep d s
  | none => .next (hostAccess a s)

/-- The move of one event. -/
def eventStep (e : Event) (s : State) : Out :=
  match e with
  | .access a => accessStep a s
  | .mem who op => memAccess who op s
  | .clean a => .next (cleanCopy a.toNat s)
  | .discard a => .next (discardCopy a.toNat s)
  | .engine => pixelStep s
  | .reset => .next s.resetInput

/-- The host's write of a word to CTRL (R70), as the event that carries it. -/
def ctrlEvent (d : Word) : Event := .access (.wr .word 0x0C d)

end Sys2Proof.Machine
end

