-- ==== Sys2Proof/Machine/Step.lean ====
section
/-! DEFINITION. One step of the machine: the next agent moves (R5, R6, R163). -/

namespace Sys2Proof.Machine

open Sys2Proof

/-- One step: the agent whose event is next moves; with no event left the ENGINE moves if it can (R148, log 2). -/
def step (s : State) : Host.Outcome State Fault Refusal :=
  match s.inputs with
  | [] => pixelStep s
  | e :: rest => eventStep e (s.withInputs rest)

/-- The state in which the next step runs the instruction with these bits: the host's write of the word to CTRL is the next event
(R70, log 3). -/
def State.withFetchWord (s : State) (nbits w : Nat) : State :=
  { s with inputs := ctrlEvent (tableWord nbits w) :: s.inputs }

end Sys2Proof.Machine
end

