-- ==== Sys2Proof/Machine/Script.lean ====
section
/-! DEFINITION. The host-script notation (R83) and the pseudo-instructions with their expansions (R84). A script is the host's program:
its WR and RD lines are events of the block, its labels and branches are the host's own (R149, log 29). -/

namespace Sys2Proof.Machine

open Sys2Proof

/-- A field that a host branch can test (R83): `<reg>.<field>`. -/
inductive ScriptField where
  | statusBusy
  | statusDone
  | statusErr
  | statusErrcode
  | ctrlIrqEn
  | ctrlAlgo
  deriving DecidableEq, Repr

/-- The register of a field (R20, R21). -/
def scriptFieldReg : ScriptField → RegName
  | .statusBusy => .status
  | .statusDone => .status
  | .statusErr => .status
  | .statusErrcode => .status
  | .ctrlIrqEn => .ctrl
  | .ctrlAlgo => .ctrl

/-- The value of a field in a word read from its register (R20, R21). -/
def scriptFieldValue (f : ScriptField) (w : Word) : Nat :=
  match f with
  | .statusBusy => (w.extractLsb' 0 1).toNat
  | .statusDone => (w.extractLsb' 1 1).toNat
  | .statusErr => (w.extractLsb' 2 1).toNat
  | .statusErrcode => (w.extractLsb' 8 4).toNat
  | .ctrlIrqEn => (w.extractLsb' 1 1).toNat
  | .ctrlAlgo => (w.extractLsb' 4 4).toNat

/-- A line of a host script (R83). -/
inductive ScriptLine where
  | wr (r : RegName) (value : Word)
  | rd (r : RegName)
  | label (name : String)
  | bne (f : ScriptField) (value : Nat) (target : String)
  deriving DecidableEq, Repr

/-- Does a BNE branch, given the word its register's last RD returned (R83)? -/
def branchTaken (f : ScriptField) (value : Nat) (lastRead : Word) : Bool := scriptFieldValue f lastRead != value

/-- The event a line sends to the block; labels and branches send none (R83, R149). -/
def scriptEvent : ScriptLine → Option Event
  | .wr r v => some (.access (.wr .word (regOffset r) v))
  | .rd r => some (.access (.rd .word (regOffset r)))
  | .label _ => none
  | .bne _ _ _ => none

/-- The pseudo-instructions (R84). -/
inductive Pseudo where
  | dither (a : Strategy) (irqEn : Bool)
  | ctrlSet (code : BitVec 4) (irqEn : Bool)
  | clear
  | config (w h t base : Word)
  | waitIdle
  | run (a : Strategy) (w h t base : Word)
  deriving DecidableEq, Repr

/-- CONFIG w, h, t, base (R84): BUF_LEN is written with (w*h*4) mod 2^32. -/
def expandConfig (w h t base : Word) : List ScriptLine :=
  [.wr .width w, .wr .height h, .wr .threshold t, .wr .bufBase base, .wr .bufLen (w * h * 4)]

/-- WAIT.IDLE (R84). -/
def expandWaitIdle : List ScriptLine :=
  [.label "L", .rd .status, .bne .statusBusy 0 "L"]

/-- The expansion of a pseudo-instruction (R84). -/
def expandPseudo : Pseudo → List ScriptLine
  | .dither a irqEn => [.wr .ctrl (commandWord a irqEn)]
  | .ctrlSet code irqEn => [.wr .ctrl (ctrlWordOf code irqEn false)]
  | .clear => [.wr .status 0x00000006]
  | .config w h t base => expandConfig w h t base
  | .waitIdle => expandWaitIdle
  | .run a w h t base => expandConfig w h t base ++ [.wr .ctrl (commandWord a false)] ++ expandWaitIdle

end Sys2Proof.Machine
end

