-- ==== Sys2Proof/WellFormed.lean ====
section
/-! DEFINITION. Well-formedness of instructions, host transactions and parameters. -/

namespace Sys2Proof

/-- An instruction is well formed: the types of its operands already hold every check (a Boolean for IRQ_EN, four bits for
ALGO: R72, R73, R79), so each constructor is. -/
def Instr.wellFormed : Instr → Bool
  | .ditherAtk _ => true
  | .ditherFs _ => true
  | .ditherJjn _ => true
  | .ditherStk _ => true
  | .ditherBayer2 _ => true
  | .ditherBayer4 _ => true
  | .ditherBayer8 _ => true
  | .ditherClust4 _ => true
  | .ctrlSet _ _ => true

/-- The formats RD and WR (R69): 32 bits wide, aligned, inside the 0x40 bytes of the window. -/
def Access.wellFormed : Access → Bool
  | .rd size offset => size == .word && offset.toNat % 4 == 0 && decide (offset.toNat < 0x40)
  | .wr size offset _ => size == .word && offset.toNat % 4 == 0 && decide (offset.toNat < 0x40)

/-- The ranges of R7: MAX_WIDTH and MAX_HEIGHT are in 1..65535. -/
def Params.wellFormed (c : Params) : Bool :=
  c.maxWidth != 0 && c.maxHeight != 0

end Sys2Proof
end

