-- ==== Sys2Proof/Safety.lean ====
section
/-! DEFINITION. What claims speak of: runs of the engine, a clean launch (R183), the end of a run and its observation (R186), and the
invariant of reachable states. -/

namespace Sys2Proof.Machine

open Sys2Proof

/-- `k` moves of the ENGINE, stopping at a fault (R148). -/
def engineSteps : Nat → State → Host.Outcome State Fault Refusal
  | 0, s => .next s
  | k + 1, s =>
    match pixelStep s with
    | .next s' => engineSteps k s'
    | .fault f => .fault f
    | .refused r => .refused r

/-- `k` steps of the machine, whoever moves, stopping at a fault. -/
def machineSteps : Nat → State → Host.Outcome State Fault Refusal
  | 0, s => .next s
  | k + 1, s =>
    match step s with
    | .next s' => machineSteps k s'
    | .fault f => .fault f
    | .refused r => .refused r

/-- The step from `s₀` is a host's CTRL write with START = 1 while BUSY = 0, and leaves `s` (R141). -/
def IssuesCommand (s₀ s : State) : Prop :=
  s₀.busy = false ∧ (∃ d rest, s₀.inputs = ctrlEvent d :: rest ∧ startBit d = true) ∧ step s₀ = .next s

/-- The states of the run in progress in `s`, under whatever moves the queue holds: every state that steps lead to while FSM stays
RUN. The reset input ends a run (R179), so none of these steps is one. -/
inductive WhileRunning (s : State) : State → Prop
  | start : s.fsm = .run → WhileRunning s s
  | next {u t : State} : WhileRunning s u → step u = .next t → t.fsm = .run → WhileRunning s t

/-- The end of the run of a command accepted in `s₀` (R186): `s₁` is the first later state with FSM = IDLE, reached without a reset. -/
def RunEnd (s₀ s₁ : State) : Prop :=
  ∃ s u, IssuesCommand s₀ s ∧ WhileRunning s u ∧ u.inputs.head? ≠ some .reset ∧ step u = .next s₁ ∧ s₁.fsm = .idle

/-- A valid end of the run of a command accepted in `s₀` (R186): its end, without a ModelFault mark. -/
def ValidEnd (s₀ s₁ : State) : Prop := RunEnd s₀ s₁ ∧ s₁.marked = false

/-- What is observed of a command (R186). -/
structure Observation where
  buffer : List Byte
  done : Bool
  err : Bool
  errcode : ErrCode
  progress : Word
  faultAddr : Word
  deriving DecidableEq, Repr

/-- The bytes of the buffer of `n` pixels at `base`. -/
def bufferBytes (m : Memory) (base n : Nat) : List Byte := (List.range (4 * n)).map (fun i => m.read (base + i))

/-- The observation, in a state, of the buffer of `n` pixels at `base`. -/
def observeBuffer (base n : Nat) (s : State) : Observation where
  buffer := bufferBytes s.mem base n
  done := s.done
  err := s.err
  errcode := s.errcode
  progress := s.progress
  faultAddr := s.faultAddr

/-- The observation of the run that ended in `s` (R186): its buffer is the latched one. -/
def observe (s : State) : Observation := observeBuffer s.lat.base.toNat s.lat.pixels s

/-- The observation of a command rejected into `s` (R186): its buffer is the one the registers describe, since a rejection leaves LAT
as it was (R153). -/
def observeRejected (s : State) : Observation := observeBuffer s.argBase (s.argW * s.argH) s

/-- The observations of the command issued in `s₀` (R186): of the valid end of its run, or, where it is rejected and has no run, of the
state right after the CTRL write. -/
inductive CommandObservation (s₀ : State) : Observation → Prop
  | run {s₁ : State} : ValidEnd s₀ s₁ → CommandObservation s₀ (observe s₁)
  | rejected {s : State} : IssuesCommand s₀ s → s.fsm = .idle → CommandObservation s₀ (observeRejected s)

/-- The byte of memory that an event of the host or another agent reads or writes, with these copies held by the host: an access to
memory, or maintenance that writes a dirty copy back (R61, R62, R172). -/
def eventAddr (cs : List HostCopy) : Event → Option Nat
  | .access _ => none
  | .mem _ op => some (opAddr op)
  | .clean a =>
    match findCopy a.toNat cs with
    | some c => if c.dirty then some a.toNat else none
    | none => none
  | .discard _ => none
  | .engine => none
  | .reset => none

/-- The byte of memory that the next move accesses, where that move is not the ENGINE's. -/
def State.foreignAddr (s : State) : Option Nat :=
  match s.inputs with
  | [] => none
  | e :: _ => eventAddr s.hostCache e

/-- Is the address in the buffer that BUF_BASE and BUF_LEN describe, [BUF_BASE, BUF_BASE + BUF_LEN) (R183)? -/
def State.inDeclared (s : State) (a : Nat) : Bool := decide (s.argBase ≤ a ∧ a < s.argBase + s.argLen)

/-- CleanLaunch (R183), of the state just before the issuing CTRL write. -/
structure CleanLaunch (s₀ : State) : Prop where
  idle : s₀.fsm = .idle
  not_busy : s₀.busy = false
  unmarked : s₀.marked = false
  /-- the buffer range is ordinary memory (R57) -/
  ordinary : ordinaryRange s₀.params s₀.argBase s₀.argLen = true
  /-- no agent but the ENGINE accesses the buffer until the run ends (R62) -/
  undisturbed : ∀ s t a, IssuesCommand s₀ s → WhileRunning s t → t.foreignAddr = some a → s₀.inDeclared a = false
  /-- every write of the host to the buffer is visible at the memory port: no dirty copy of a byte of it is left (R61, log 15) -/
  visible : ∀ c ∈ s₀.hostCache, c.dirty = true → s₀.inDeclared c.addr = false

/-- What holds of the registers and flags of every reachable state (R30, R31, R154). -/
structure FlagsInv (s : State) : Prop where
  busy_iff_run : s.busy = true ↔ s.fsm = .run
  busy_clean : s.busy = true → s.done = false ∧ s.err = false
  done_not_err : ¬(s.done = true ∧ s.err = true)
  err_iff_code : s.err = true ↔ s.errcode ≠ .none

/-- What holds while a run is in progress (R16, R27, R37, R32): the latches equal the registers, which pass the checks of an issue; the
scan is inside the image and PROGRESS shows it; the error buffer of a diffusion run has one entry for each pixel. -/
structure RunInv (s : State) : Prop where
  latched : s.lat = s.latched s.lat.strategy
  algo_latched : s.algo = s.lat.strategy.code
  args_pass : s.argError = none
  scan_inside : s.scanP < s.lat.pixels
  progress_scan : s.progress = BitVec.ofNat 32 s.scanP
  errbuf_length : isDiffusion s.lat.strategy = true → s.errbuf.length = s.lat.pixels

/-- The invariant of reachable states. -/
structure StateInv (s : State) : Prop where
  params_wf : s.params.wellFormed = true
  mem_wf : s.mem.wf = true
  flags : FlagsInv s
  running : s.fsm = .run → RunInv s
  scan_bound : s.scanP ≤ s.params.maxWidth.toNat * s.params.maxHeight.toNat

/-- What claims about a run ask of the state just before the issuing CTRL write, beside CleanLaunch: parameters in their ranges (R7) and
memory in its canonical form. It reads no DONE, ERR, ERRCODE, PROGRESS or FAULT_ADDR, which the issue overwrites (R183, R186). -/
structure LaunchWf (s₀ : State) : Prop where
  params_wf : s₀.params.wellFormed = true
  mem_wf : s₀.mem.wf = true

/-- The operands of a command that pass every check of an issue (R141, R157 to R159), in unbounded integers. -/
def ArgsPass (s : State) : Prop :=
  0 < s.width.toNat ∧ s.width.toNat ≤ s.params.maxWidth.toNat ∧
  0 < s.height.toNat ∧ s.height.toNat ≤ s.params.maxHeight.toNat ∧
  s.bufLen.toNat = s.width.toNat * s.height.toNat * 4 ∧
  s.bufBase.toNat % 4 = 0 ∧
  s.bufBase.toNat + s.bufLen.toNat ≤ 2 ^ 32

/-- What every issue leaves before its checks (R141), written out. -/
def issuedState (irqEn : Bool) (algo : BitVec 4) (s : State) : State :=
  { s with
    irqEn := irqEn, algo := algo, done := false, err := false, errcode := .none, progress := 0, faultAddr := 0 }

/-- The run that acceptance starts (R144), written out, but for ERRBUF. -/
def startedState (a : Strategy) (s : State) : State :=
  { s with
    lat := { w := s.width, h := s.height, t := (s.threshold.toInt : Rat), base := s.bufBase, strategy := a }
    scanP := 0, busy := true, fsm := .run }

/-- What a rejection with a code leaves (R160), written out. -/
def rejectedState (irqEn : Bool) (algo : BitVec 4) (c : ErrCode) (s : State) : State :=
  { s with
    irqEn := irqEn, algo := algo, done := false, err := true, errcode := c, progress := 0, faultAddr := 0,
    busy := false, fsm := .idle }

/-- Do the operands of a decoded instruction hold what the word's fields hold (R72, R79)? -/
def carriesFields (i : Instr) (d : Word) : Prop :=
  match i with
  | .ditherAtk irqEn => irqEn = irqBit d
  | .ditherFs irqEn => irqEn = irqBit d
  | .ditherJjn irqEn => irqEn = irqBit d
  | .ditherStk irqEn => irqEn = irqBit d
  | .ditherBayer2 irqEn => irqEn = irqBit d
  | .ditherBayer4 irqEn => irqEn = irqBit d
  | .ditherBayer8 irqEn => irqEn = irqBit d
  | .ditherClust4 irqEn => irqEn = irqBit d
  | .ctrlSet irqEn algo => irqEn = irqBit d ∧ algo = algoField d

/-- The set F64 of finite binary64 values (R10), by sign, significand and exponent. -/
def InF64 (v : Rat) : Prop :=
  v = 0 ∨ ∃ (m : Int) (q : Int), m ≠ 0 ∧ |m| < 2 ^ 53 ∧ -1074 ≤ q ∧ q ≤ 971 ∧ v = (m : Rat) * (2 : Rat) ^ q

/-- The byte of channel c of pixel p of the run's buffer (R44). -/
def pixelByte (m : Memory) (l : Latch) (p c : Nat) : Byte := m.read (l.base.toNat + 4 * p + c)

/-- The luminance of pixel p of the run's buffer (R90). -/
def pixelLum (m : Memory) (l : Latch) (p : Nat) : Nat :=
  lum (pixelByte m l p 0) (pixelByte m l p 1) (pixelByte m l p 2)

/-- The output of the pixel step that is next (R104, R105; R125 to R127). -/
def nextOutput (s : State) : Nat :=
  if isDiffusion s.lat.strategy then
    if s.lat.t < clampF64 (rne64 ((pixelLum s.mem s.lat s.scanP : Rat) + s.errAt s.scanP)) 0 255 then 255 else 0
  else orderedOut s.lat.strategy s.lat.t (s.scanP % s.lat.w.toNat) (s.scanP / s.lat.w.toNat) (pixelLum s.mem s.lat s.scanP)

/-- Pixel p holds one of the two output colours (R118). -/
def BinaryPixel (m : Memory) (l : Latch) (p : Nat) : Prop :=
  pixelByte m l p 1 = pixelByte m l p 0 ∧ pixelByte m l p 2 = pixelByte m l p 0 ∧
    (pixelByte m l p 0 = 0 ∨ pixelByte m l p 0 = 255)

/-- What the buffer of a run begun in `s` holds in a state `t` of that run, unfinished, complete or aborted, where pixel p's output is
`out p` (R147, R161): outputs below SCAN.P, the bytes of the start above it; at SCAN.P the bytes of the start, or after an abort each
of R, G and B old or the output; every A byte as at the start. -/
structure ScannedTo (out : Nat → Byte) (s t : State) : Prop where
  scan_le : t.scanP ≤ s.lat.pixels
  progress : t.progress = BitVec.ofNat 32 t.scanP
  done_all : t.done = true → t.scanP = s.lat.pixels
  below : ∀ p c, p < t.scanP → c < 3 → pixelByte t.mem s.lat p c = out p
  above : ∀ p c, t.scanP < p → p < s.lat.pixels → c < 3 → pixelByte t.mem s.lat p c = pixelByte s.mem s.lat p c
  at_scan : ∀ c, t.scanP < s.lat.pixels → c < 3 →
    pixelByte t.mem s.lat t.scanP c = pixelByte s.mem s.lat t.scanP c ∨
      t.err = true ∧ pixelByte t.mem s.lat t.scanP c = out t.scanP
  alpha : ∀ p, p < s.lat.pixels → pixelByte t.mem s.lat p 3 = pixelByte s.mem s.lat p 3

/-- A run about to take its first pixel step (R141, R144), in a state the invariant admits and without a ModelFault. -/
structure RunStart (s : State) : Prop where
  inv : StateInv s
  running : s.fsm = .run
  first : s.scanP = 0
  no_fault_addr : s.faultAddr = 0
  unmarked : s.marked = false
  errbuf_zero : isDiffusion s.lat.strategy = true → s.errbuf = List.replicate s.lat.pixels 0

/-- The reference of a diffusion run: the error buffer and the outputs after the first `n` pixels of an image of given luminances
(R103 to R108), with no machine around it. -/
def referenceScan (form : ProductForm) (w h : Nat) (t : F64) (ks : List KernelEntry) (lums : Nat → Nat) :
    Nat → List F64 × List Nat
  | 0 => (List.replicate (w * h) 0, [])
  | n + 1 =>
    let (buf, outs) := referenceScan form w h t ks lums n
    let g := clampF64 (rne64 ((lums n : Rat) + (buf[n]?).getD 0)) 0 255
    let out := if t < g then 255 else 0
    let e := rne64 (g - ((out : Nat) : Rat))
    (distribute form w h (n % w) (n / w) e ks buf, outs ++ [out])

/-- K(ALGO)[mv] of R133: the least integer not below mv×255/(N²−1) − 127.5. -/
def integerBound (n mv : Nat) : Int := ⌈((mv : Rat) * 255 / ((n : Rat) * n - 1) - 255 / 2)⌉

end Sys2Proof.Machine
end

