-- ==== Sys2Proof/Certificates/Slice0/Obligations.lean ====
section
/-! DEFINITION. The statements about the block, for the provers. The fields `inputs` (whose move comes next, log 1), `busAnswers` (the
platform's answers, log 5), `draws` and `resp` (the answer on the host bus, log 18) are the model's own; every statement holds for
any content of them. -/

open Sys2Proof Sys2Proof.Machine

/-! Encoding. -/

/-- R71, R72, R79, R81: decoding the bytes of an instruction, whatever bytes follow them, gives the instruction back, with every operand
at every value. -/
def Obligations.DecodeEncodeRoundTrip : Prop :=
  ∀ (i : Instr) (rest : List Byte), i.wellFormed = true →
    decodeWord (encode i) = .ok i ∧ decodeBytes (encodeBytes i ++ rest) = .ok (i, rest)

/-- R81: how the decoder classifies every word. A word decodes to an instruction exactly when it lies in that instruction's row of the
opcode table (mask and match) and the instruction's operands are the word's fields; the words that are no instruction are told apart
by RSVD_BITS first, then BAD_ALGO. -/
def Obligations.DecoderClassifiesEveryWord : Prop :=
  ∀ d : Word,
    (∀ i, decodeWord d = .ok i ↔ (d &&& i.row.mask = i.row.pattern ∧ carriesFields i d)) ∧
    (decodeWord d = .error .rsvdBits ↔ d.getLsbD 0 = true ∧ (d.extractLsb' 2 2 ≠ 0 ∨ d.extractLsb' 8 24 ≠ 0)) ∧
    (decodeWord d = .error .badAlgo ↔
      d.getLsbD 0 = true ∧ d.extractLsb' 2 2 = 0 ∧ d.extractLsb' 8 24 = 0 ∧ 8 ≤ (d.extractLsb' 4 4).toNat)

/-- R73, R79: words written out from the encoding tables, one of each family, and two illegal ones. -/
def Obligations.SampleWordsDecode : Prop :=
  decodeWord 0x00000001 = .ok (.ditherAtk false) ∧ decodeWord 0x00000013 = .ok (.ditherFs true) ∧
  decodeWord 0x00000061 = .ok (.ditherBayer8 false) ∧ decodeWord 0x00000073 = .ok (.ditherClust4 true) ∧
  decodeWord 0xFFFFFF7E = .ok (.ctrlSet true 7) ∧ decodeWord 0x00000081 = .error .badAlgo ∧
  decodeWord 0x00000085 = .error .rsvdBits

/-! The step. -/

/-- R70, R80: when the next event is the host's write of a word to CTRL and the word decodes to an instruction, the step is `exec` of
that instruction at the state without the event, the bus having taken the write. -/
def Obligations.StepRunsDecodedInstruction : Prop :=
  ∀ (s : State) (d : Word) (i : Instr) (rest : List Event),
    s.inputs = .access (.wr .word 0x0C d) :: rest → decodeWord d = .ok i →
    step s = exec i { s with inputs := rest, resp := .written }

/-- R77, R78, R155, R156: a command word with a reserved bit set is rejected with RSVD_BITS, whatever its ALGO; else one with ALGO in
8..15 is rejected with BAD_ALGO. This is the whole next state: CTRL keeps the written fields, and memory and everything else are
unchanged. -/
def Obligations.IllegalWordIsRejected : Prop :=
  ∀ (s : State) (d : Word) (rest : List Event), s.inputs = .access (.wr .word 0x0C d) :: rest → s.busy = false →
    d.getLsbD 0 = true →
    let s' := { s with inputs := rest, resp := .written }
    let reserved := d.extractLsb' 2 2 ≠ 0 ∨ d.extractLsb' 8 24 ≠ 0
    (reserved → step s = .next (rejectedState (d.getLsbD 1) (d.extractLsb' 4 4) .rsvdBits s')) ∧
    (¬reserved → 8 ≤ (d.extractLsb' 4 4).toNat →
      step s = .next (rejectedState (d.getLsbD 1) (d.extractLsb' 4 4) .badAlgo s'))

/-! The instructions. -/

/-- R144: a diffusion command with BUSY = 0, passing operands and a buffer in ordinary memory is accepted: this is the whole next state.
It latches the operands, clears ERRBUF, and starts; memory and everything not named are unchanged. -/
def Obligations.DiffusionCommandIsAccepted : Prop :=
  ∀ (s : State) (irqEn : Bool), s.busy = false → ArgsPass s → s.bufferOrdinary = true →
    exec (.ditherAtk irqEn) s =
      .next { startedState .atk (issuedState irqEn 0 s) with errbuf := List.replicate (s.width.toNat * s.height.toNat) 0 } ∧
    exec (.ditherFs irqEn) s =
      .next { startedState .fs (issuedState irqEn 1 s) with errbuf := List.replicate (s.width.toNat * s.height.toNat) 0 } ∧
    exec (.ditherJjn irqEn) s =
      .next { startedState .jjn (issuedState irqEn 2 s) with errbuf := List.replicate (s.width.toNat * s.height.toNat) 0 } ∧
    exec (.ditherStk irqEn) s =
      .next { startedState .stk (issuedState irqEn 3 s) with errbuf := List.replicate (s.width.toNat * s.height.toNat) 0 }

/-- R144: an ordered command with BUSY = 0, passing operands and a buffer in ordinary memory is accepted: this is the whole next state.
It does not touch ERRBUF. -/
def Obligations.OrderedCommandIsAccepted : Prop :=
  ∀ (s : State) (irqEn : Bool), s.busy = false → ArgsPass s → s.bufferOrdinary = true →
    exec (.ditherBayer2 irqEn) s = .next (startedState .bayer2 (issuedState irqEn 4 s)) ∧
    exec (.ditherBayer4 irqEn) s = .next (startedState .bayer4 (issuedState irqEn 5 s)) ∧
    exec (.ditherBayer8 irqEn) s = .next (startedState .bayer8 (issuedState irqEn 6 s)) ∧
    exec (.ditherClust4 irqEn) s = .next (startedState .clust4 (issuedState irqEn 7 s))

/-- R57, R172: a command accepted over a buffer that is not ordinary memory records BUFFER_NOT_MEMORY (that it does so at acceptance is
the model's reading, log 12). The registers are as for every accepted command and every byte outside the buffer is unchanged. -/
def Obligations.AcceptedOverNoMemoryIsMarked : Prop :=
  ∀ (s : State) (a : Strategy) (irqEn : Bool), s.busy = false → ArgsPass s → s.bufferOrdinary = false →
    ∃ t, exec (a.instr irqEn) s = .next t ∧ t.bufferNotMemory = true ∧ t.hostRace = s.hostRace ∧
      t.lat = (startedState a s).lat ∧ t.busy = true ∧ t.fsm = .run ∧ t.scanP = 0 ∧ t.irqEn = irqEn ∧ t.algo = a.code ∧
      t.done = false ∧ t.err = false ∧ t.errcode = .none ∧ t.progress = 0 ∧ t.faultAddr = 0 ∧
      t.errbuf = (if isDiffusion a then List.replicate (s.width.toNat * s.height.toNat) 0 else s.errbuf) ∧
      t.width = s.width ∧ t.height = s.height ∧ t.threshold = s.threshold ∧ t.bufBase = s.bufBase ∧ t.bufLen = s.bufLen ∧
      t.params = s.params ∧ t.inputs = s.inputs ∧ t.busAnswers = s.busAnswers ∧
      (∀ x, x < s.bufBase.toNat ∨ s.bufBase.toNat + s.bufLen.toNat ≤ x → t.mem.read x = s.mem.read x)

/-- R141, R162: while BUSY = 0 every command is rejected with the first failing check in the order BAD_DIM, BAD_LEN, BAD_ALIGN,
BAD_RANGE: this is the whole next state, and memory is unchanged. -/
def Obligations.CommandRejectedByFirstFailingCheck : Prop :=
  ∀ (s : State) (a : Strategy) (irqEn : Bool), s.busy = false →
    let w := s.width.toNat
    let h := s.height.toNat
    let dimFails := w = 0 ∨ s.params.maxWidth.toNat < w ∨ h = 0 ∨ s.params.maxHeight.toNat < h
    let lenFails := s.bufLen.toNat ≠ w * h * 4
    let alignFails := s.bufBase.toNat % 4 ≠ 0
    let rangeFails := 2 ^ 32 < s.bufBase.toNat + s.bufLen.toNat
    (dimFails → exec (a.instr irqEn) s = .next (rejectedState irqEn a.code .badDim s)) ∧
    (¬dimFails → lenFails → exec (a.instr irqEn) s = .next (rejectedState irqEn a.code .badLen s)) ∧
    (¬dimFails → ¬lenFails → alignFails → exec (a.instr irqEn) s = .next (rejectedState irqEn a.code .badAlign s)) ∧
    (¬dimFails → ¬lenFails → ¬alignFails → rangeFails →
      exec (a.instr irqEn) s = .next (rejectedState irqEn a.code .badRange s))

/-- R142: CTRL.SET while BUSY = 0 sets the two CTRL fields and changes nothing else, this is the whole next state; the bits it ignores
do not matter; and it asserts the interrupt at once when DONE or ERR is 1 and bit 1 is 1, and deasserts it when bit 1 is 0. -/
def Obligations.CtrlSetWritesItsFields : Prop :=
  ∀ s : State, s.busy = false →
    (∀ (irqEn : Bool) (algo : BitVec 4), exec (.ctrlSet irqEn algo) s = .next { s with irqEn := irqEn, algo := algo }) ∧
    (∀ (d : Word) (rest : List Event), s.inputs = .access (.wr .word 0x0C d) :: rest → d.getLsbD 0 = false →
      ∃ t, step s = .next t ∧
        t = { s with inputs := rest, resp := .written, irqEn := d.getLsbD 1, algo := d.extractLsb' 4 4 } ∧
        t.irq = (d.getLsbD 1 && (s.done || s.err)))

/-- R140: while BUSY = 1 a legal write to CTRL has no effect whatever its data; the bus takes it and the run continues. -/
def Obligations.BusyIgnoresCtrlWrites : Prop :=
  ∀ (s : State) (d : Word) (rest : List Event), s.inputs = .access (.wr .word 0x0C d) :: rest → s.busy = true →
    step s = .next { s with inputs := rest, resp := .written }

/-- R165, R166: the interrupt after a command: a rejected one leaves it equal to the command's bit 1, an accepted one deasserts it. -/
def Obligations.InterruptFollowsCommands : Prop :=
  ∀ (s t : State) (a : Strategy) (irqEn : Bool), s.busy = false → exec (a.instr irqEn) s = .next t →
    (¬ArgsPass s → t.irq = irqEn) ∧ (ArgsPass s → t.irq = false)

/-- R139, R140, R143, R163: from a state that meets the invariant, no host access to the window, legal or not, changes anything of a run
in progress: only the queue and the answer on the host bus differ. That this holds, without a HOST_RACE, also where the window overlaps
the run's buffer, is the model's choice (log 34). -/
def Obligations.HostAccessesLeaveARunAlone : Prop :=
  ∀ (s : State) (a : Access) (rest : List Event), StateInv s → s.busy = true → s.inputs = .access a :: rest →
    ∃ r, step s = .next { s with inputs := rest, resp := r }

/-! The register window. The statements that take in BUSY = 1 (and BusyIgnoresCtrlWrites above) follow R135 to R143 also where the window
overlaps the run's buffer, in which case R62 and R172 can be read as a HOST_RACE: the model's choice, log 34. -/

/-- R18, R42: what the sixteen registers read right after reset; MAXDIM is given by the parameters' defaults. -/
def Obligations.ResetRegisterValues : Prop :=
  [RegName.id, .version, .caps, .ctrl, .status, .width, .height, .threshold, .bufBase, .bufLen, .progress, .faultAddr, .maxDim,
    .reserved34, .reserved38, .reserved3C].map State.reset.regRead =
  [0x44495448, 0x00010000, 0x000000FF, 0, 0, 0, 0, 0, 0, 0, 0, 0, 0xFFFF1000, 0, 0, 0] ∧
  State.reset.fsm = .idle ∧ State.reset.scanP = 0 ∧ State.reset.irq = false

/-- R135, R54: a legal read returns the register's value, composed of its fields, at any time, and changes no state but the bus's
answer and the queue. -/
def Obligations.RegisterReadReturnsItsFields : Prop :=
  ∀ (s : State) (r : RegName) (rest : List Event), s.inputs = .access (.rd .word (regOffset r)) :: rest →
    ∃ v : Word, step s = .next { s with inputs := rest, resp := .data v } ∧
      (r = .ctrl → v.toNat = s.algo.toNat * 16 + s.irqEn.toNat * 2) ∧
      (r = .status → v.toNat = s.errcode.code.toNat * 256 + s.err.toNat * 4 + s.done.toNat * 2 + s.busy.toNat) ∧
      (r = .width → v = s.width) ∧ (r = .height → v = s.height) ∧ (r = .threshold → v = s.threshold) ∧
      (r = .bufBase → v = s.bufBase) ∧ (r = .bufLen → v = s.bufLen) ∧ (r = .progress → v = s.progress) ∧
      (r = .faultAddr → v = s.faultAddr) ∧ (r = .id → v = 0x44495448) ∧ (r = .version → v = 0x00010000) ∧
      (r = .caps → v = 0x000000FF) ∧
      (r = .maxDim → v.toNat = s.params.maxHeight.toNat * 65536 + s.params.maxWidth.toNat) ∧
      (r = .reserved34 ∨ r = .reserved38 ∨ r = .reserved3C → v = 0)

/-- R139: a legal write to a configuration register stores all 32 bits while BUSY = 0 and has no effect while BUSY = 1; no other state
changes. -/
def Obligations.ConfigurationWrites : Prop :=
  ∀ (s : State) (r : RegName) (d : Word) (rest : List Event), s.inputs = .access (.wr .word (regOffset r) d) :: rest →
    let s' := { s with inputs := rest, resp := .written }
    (s.busy = true → r ∈ [RegName.width, .height, .threshold, .bufBase, .bufLen] → step s = .next s') ∧
    (s.busy = false →
      (r = .width → step s = .next { s' with width := d }) ∧
      (r = .height → step s = .next { s' with height := d }) ∧
      (r = .threshold → step s = .next { s' with threshold := d }) ∧
      (r = .bufBase → step s = .next { s' with bufBase := d }) ∧
      (r = .bufLen → step s = .next { s' with bufLen := d }))

/-- R85, R143: a legal write to STATUS clears DONE by bit 1, ERR and ERRCODE by bit 2, and nothing else, whatever BUSY is. -/
def Obligations.StatusWriteClearsFlags : Prop :=
  ∀ (s : State) (d : Word) (rest : List Event), s.inputs = .access (.wr .word 0x10 d) :: rest →
    step s = .next { s with
      inputs := rest, resp := .written
      done := s.done && !d.getLsbD 1
      err := s.err && !d.getLsbD 2
      errcode := if d.getLsbD 2 then .none else s.errcode }

/-- R138: a legal write to a read-only register has no effect, at any time. -/
def Obligations.ReadOnlyWritesIgnored : Prop :=
  ∀ (s : State) (r : RegName) (d : Word) (rest : List Event), s.inputs = .access (.wr .word (regOffset r) d) :: rest →
    r ∈ [RegName.id, .version, .caps, .progress, .faultAddr, .maxDim] →
    step s = .next { s with inputs := rest, resp := .written }

/-- R29, R137: a legal read of 0x34, 0x38 or 0x3C returns 0 and a legal write to them has no effect. -/
def Obligations.ReservedOffsetsReadZero : Prop :=
  ∀ (s : State) (offset d : Word) (rest : List Event), offset = 0x34 ∨ offset = 0x38 ∨ offset = 0x3C →
    (s.inputs = .access (.rd .word offset) :: rest → step s = .next { s with inputs := rest, resp := .data 0 }) ∧
    (s.inputs = .access (.wr .word offset d) :: rest → step s = .next { s with inputs := rest, resp := .written })

/-- R50, R136: an access to the window that is not 32 bits wide, or not at a multiple of 4 in 0x00..0x3C, gets ErrorResponse and has no
other effect. That an offset of 0x40 or more is answered so is the model's reading (log 25: R69 leaves such addresses to the platform's
decoder). -/
def Obligations.IllegalAccessGetsErrorResponse : Prop :=
  ∀ (s : State) (size : Size) (offset data : Word) (rest : List Event),
    size ≠ .word ∨ offset.toNat % 4 ≠ 0 ∨ 0x40 ≤ offset.toNat →
    (s.inputs = .access (.rd size offset) :: rest → step s = .next { s with inputs := rest, resp := .errorResponse }) ∧
    (s.inputs = .access (.wr size offset data) :: rest → step s = .next { s with inputs := rest, resp := .errorResponse })

/-- R84: the expansions of the pseudo-instructions send the words of the instructions they stand for. -/
def Obligations.PseudoInstructionsSendTheirWords : Prop :=
  (∀ (a : Strategy) (irqEn : Bool),
    expandPseudo (.dither a irqEn) = [.wr .ctrl (encode (a.instr irqEn))] ∧
    (commandWord a irqEn).toNat = a.code.toNat * 16 + irqEn.toNat * 2 + 1) ∧
  (∀ (code : BitVec 4) (irqEn : Bool),
    expandPseudo (.ctrlSet code irqEn) = [.wr .ctrl (encode (.ctrlSet irqEn code))] ∧
    (ctrlWordOf code irqEn false).toNat = code.toNat * 16 + irqEn.toNat * 2) ∧
  (∀ w h t base : Word,
    (expandPseudo (.config w h t base)).map scriptEvent =
      [some (.access (.wr .word 0x14 w)), some (.access (.wr .word 0x18 h)), some (.access (.wr .word 0x1C t)),
        some (.access (.wr .word 0x20 base)),
        some (.access (.wr .word 0x24 (BitVec.ofNat 32 (w.toNat * h.toNat * 4))))])

/-! Reset. -/

/-- R178, R179, R180: the reset input sets every item of R42 to its reset value and changes neither memory, nor the parameters, nor a
recorded ModelFault. -/
def Obligations.ResetInputRestoresTheBlock : Prop :=
  ∀ (s : State) (rest : List Event), s.inputs = .reset :: rest →
    ∃ t, step s = .next t ∧ t.irqEn = false ∧ t.algo = 0 ∧ t.busy = false ∧ t.done = false ∧ t.err = false ∧
      t.errcode = .none ∧ t.width = 0 ∧ t.height = 0 ∧ t.threshold = 0 ∧ t.bufBase = 0 ∧ t.bufLen = 0 ∧ t.progress = 0 ∧
      t.faultAddr = 0 ∧ t.fsm = .idle ∧ t.scanP = 0 ∧ t.irq = false ∧
      t.mem = s.mem ∧ t.params = s.params ∧ t.hostRace = s.hostRace ∧ t.bufferNotMemory = s.bufferNotMemory

/-- R181: the first command after reset is rejected with BAD_DIM, since WIDTH = 0, and memory keeps what it held. How the command comes to
run is the model's: withFetchWord stands for the host's CTRL write of its word (log 3). -/
def Obligations.FirstCommandAfterResetIsBadDim : Prop :=
  ∀ (a : Strategy) (irqEn : Bool),
    ∃ t, step (State.reset.withFetchWord 32 (commandWord a irqEn).toNat) = .next t ∧ t.statusWord = 0x00000304 ∧
      t.irq = irqEn ∧ t.mem = State.reset.mem ∧ t.fsm = .idle

/-! Arithmetic. -/

/-- R10: rne64 gives a binary64 value, no binary64 value is nearer, and a binary64 value is left as it is (below the overflow that
never arises). -/
def Obligations.RoundingIsToNearest : Prop :=
  ∀ v : Rat, |v| ≤ 2 ^ 1023 →
    InF64 (rne64 v) ∧ (∀ x : Rat, InF64 x → |rne64 v - v| ≤ |x - v|) ∧ (InF64 v → rne64 v = v)

/-- R10: the conversion of an integer of magnitude below 2^53 is exact. -/
def Obligations.SmallIntegersAreExact : Prop :=
  ∀ n : Int, |n| < 2 ^ 53 → rne64 (toF64 n) = n ∧ InF64 (toF64 n)

/-- R10: a value exactly halfway between two neighbouring binary64 values, of either sign, normal or subnormal, goes to the one with the
even significand. The significand m = 2^53−1 has a neighbour in F64 only below the largest exponent: at q = 971 its tie overflows (R10),
which the model leaves out (log 10). -/
def Obligations.HalfwayRoundsToEven : Prop :=
  ∀ (m : Nat) (q : Int), -1074 ≤ q → q ≤ 971 → m < 2 ^ 53 → (2 ^ 52 ≤ m ∨ q = -1074) → ¬(m = 2 ^ 53 - 1 ∧ q = 971) →
    let tie := ((m : Rat) + 1 / 2) * (2 : Rat) ^ q
    let even := (if m % 2 = 0 then (m : Rat) else (m : Rat) + 1) * (2 : Rat) ^ q
    rne64 tie = even ∧ rne64 (-tie) = -even

/-- R101: the fraction constants, each the exact rational of its binary64 value. -/
def Obligations.FractionConstants : Prop :=
  frac 7 16 = 7 / 16 ∧ frac 3 16 = 3 / 16 ∧ frac 5 16 = 5 / 16 ∧ frac 1 16 = 1 / 16 ∧ frac 1 8 = 1 / 8 ∧
  frac 7 48 = mkRat 5254199565265579 (2 ^ 55) ∧ frac 5 48 = mkRat 7505999378950827 (2 ^ 56) ∧ frac 3 48 = 1 / 16 ∧
  frac 1 48 = mkRat 6004799503160661 (2 ^ 58) ∧ frac 8 42 = mkRat 857828500451523 (2 ^ 52) ∧
  frac 4 42 = mkRat 857828500451523 (2 ^ 53) ∧ frac 2 42 = mkRat 857828500451523 (2 ^ 54) ∧
  frac 1 42 = mkRat 857828500451523 (2 ^ 55)

/-- R117: for the Floyd–Steinberg and Atkinson kernels both product forms give the same contribution whenever it is not subnormal; for
the two others they differ in the last bit for some errors, as in the rule's two examples. -/
def Obligations.ProductFormsAgreeForDyadicKernels : Prop :=
  (∀ (e : F64) (k : KernelEntry), k ∈ kernelFs ∨ k ∈ kernelAtk →
    (2 : Rat) ^ (-1022 : Int) ≤ |e * k.num / k.den| →
    contrib .fractionConstant e k = contrib .mulThenDiv e k) ∧
  contrib .fractionConstant (-254) ⟨1, 0, 7, 48⟩ = -mkRat 2606575565580971 (2 ^ 46) ∧
  contrib .mulThenDiv (-254) ⟨1, 0, 7, 48⟩ = -mkRat 5213151131161941 (2 ^ 47) ∧
  contrib .fractionConstant (-250) ⟨1, 0, 8, 42⟩ = -mkRat 6701785159777523 (2 ^ 47) ∧
  contrib .mulThenDiv (-250) ⟨1, 0, 8, 42⟩ = -mkRat 1675446289944381 (2 ^ 45)

/-- R114: the exact totals of the kernels' weights; the binary64 fractions of Jarvis-Judice-Ninke and Stucki do not sum to 1. -/
def Obligations.KernelWeightTotals : Prop :=
  (kernelFs.map (fun k => (k.num : Rat) / k.den)).sum = 1 ∧ (kernelAtk.map (fun k => (k.num : Rat) / k.den)).sum = 3 / 4 ∧
  (kernelJjn.map (fun k => (k.num : Rat) / k.den)).sum = 1 ∧ (kernelStk.map (fun k => (k.num : Rat) / k.den)).sum = 1 ∧
  (kernelJjn.map (fun k => frac k.num k.den)).sum ≠ 1 ∧ (kernelStk.map (fun k => frac k.num k.den)).sum ≠ 1

/-- R134: each matrix is square and a permutation of 0..N²−1. -/
def Obligations.MatricesArePermutations : Prop :=
  ∀ a : Strategy, isDiffusion a = false →
    (matrixOf a).length = sideOf a ∧ (∀ row ∈ matrixOf a, row.length = sideOf a) ∧
    (matrixOf a).flatten.Perm (List.range (sideOf a * sideOf a))

/-- R86, R91: the luminance is in 0..255; black gives 0 and white gives 255. -/
def Obligations.LuminanceInRange : Prop :=
  (∀ r g b : Byte, lum r g b ≤ 255) ∧ lum 0 0 0 = 0 ∧ lum 255 255 255 = 255

/-- R92: where the exact sum is no tie, the luminance is the rounded integer form; at a tie it is one of the two integers beside it. -/
def Obligations.LuminanceIntegerForm : Prop :=
  ∀ r g b : Byte,
    let n := 299 * r.toNat + 587 * g.toNat + 114 * b.toNat
    (n % 1000 ≠ 500 → lum r g b = (n + 500) / 1000) ∧
    (n % 1000 = 500 → lum r g b = n / 1000 ∨ lum r g b = (n + 500) / 1000)

/-- R93: the luminances of the rule's examples, members of the exception set among them. -/
def Obligations.LuminanceExamples : Prop :=
  lum 0 0 250 = 29 ∧ lum 0 36 12 = 22 ∧ lum 0 204 68 = 127 ∧ lum 128 128 128 = 128 ∧ lum 100 100 100 = 100 ∧
  lum 255 0 0 = 76 ∧ lum 0 255 0 = 150 ∧ lum 0 0 255 = 29

/-- R110, R104, R105: with T < 0 every diffusion output is 255, with T ≥ 255 every one is 0, whatever error has accumulated. -/
def Obligations.DiffusionThresholdExtremes : Prop :=
  ∀ (l : Nat) (e0 t : F64),
    (t < 0 → binarize (adjustedGray l e0) t = 255) ∧ (255 ≤ t → binarize (adjustedGray l e0) t = 0)

/-- R133: for every threshold register and every luminance, the comparison of an ordered step in binary64 is the integer test
L − t ≥ K[mv]; and the rule's tables of K. -/
def Obligations.OrderedIntegerForm : Prop :=
  (∀ (a : Strategy) (t : Word) (x y l : Nat), isDiffusion a = false → l ≤ 255 →
    orderedOut a (thresholdF64 t) x y l =
      if integerBound (sideOf a) (matrixValue a x y) ≤ (l : Int) - t.toInt then 255 else 0) ∧
  (List.range 4).map (integerBound 2) = [-127, -42, 43, 128] ∧
  (∀ mv, mv < 16 → integerBound 4 mv = 17 * (mv : Int) - 127) ∧
  (List.range 64).map (integerBound 8) =
    [-127, -123, -119, -115, -111, -107, -103, -99, -95, -91, -87, -82, -78, -74, -70, -66,
     -62, -58, -54, -50, -46, -42, -38, -34, -30, -26, -22, -18, -14, -10, -6, -2,
     3, 7, 11, 15, 19, 23, 27, 31, 35, 39, 43, 47, 51, 55, 59, 63,
     67, 71, 75, 79, 83, 88, 92, 96, 100, 104, 108, 112, 116, 120, 124, 128]

/-- R108, R109, R115: a kernel entry reaches from (x, y) only a pixel inside the image, at its own offset, scanned later, at most two
rows down. -/
def Obligations.KernelReachesOnlyLaterPixels : Prop :=
  ∀ (a : Strategy) (k : KernelEntry) (w h x y q : Nat), k ∈ kernelOf a → x < w → neighbour w h x y k = some q →
    y * w + x < q ∧ q < w * h ∧ ((q % w : Nat) : Int) = x + k.dx ∧ ((q / w : Nat) : Int) = y + k.dy ∧ q / w ≤ y + 2

/-! The pixel step. -/

/-- R104 to R108, R145: the pixel step of a diffusion run whose two accesses succeed. The output replaces R, G and B, every other byte
keeps its value; the scan advances; each in-image neighbour's ERRBUF entry gets its contribution and no other entry changes. -/
def Obligations.DiffusionPixelStep : Prop :=
  ∀ (s : State) (rest : List BusAnswer), s.fsm = .run → isDiffusion s.lat.strategy = true → s.marked = false → s.mem.wf = true →
    s.scanP + 1 < s.lat.pixels → s.errbuf.length = s.lat.pixels → s.lat.base.toNat + 4 * s.lat.pixels ≤ 2 ^ 32 →
    s.busAnswers = .ok :: .ok :: rest →
    let p := s.scanP
    let g := clampF64 (rne64 ((pixelLum s.mem s.lat p : Rat) + s.errAt p)) 0 255
    let out := if s.lat.t < g then 255 else 0
    let e := rne64 (g - ((out : Nat) : Rat))
    let w := s.lat.w.toNat
    let h := s.lat.h.toNat
    ∃ m buf,
      pixelStep s = .next { s with
        mem := m, errbuf := buf, scanP := p + 1, progress := BitVec.ofNat 32 (p + 1), busAnswers := rest } ∧
      (∀ c, c < 3 → pixelByte m s.lat p c = BitVec.ofNat 8 out) ∧
      (∀ x, (∀ c, c < 3 → x ≠ s.lat.base.toNat + 4 * p + c) → m.read x = s.mem.read x) ∧
      (∀ k ∈ kernelOf s.lat.strategy, ∀ q, neighbour w h (p % w) (p / w) k = some q →
        buf[q]? = some (rne64 (s.errAt q + contrib s.params.productForm e k))) ∧
      (∀ q, (∀ k ∈ kernelOf s.lat.strategy, neighbour w h (p % w) (p / w) k ≠ some q) → buf[q]? = s.errbuf[q]?)

/-- R125 to R128, R145: the pixel step of an ordered run whose two accesses succeed: this is the whole next state but for memory, where
the output replaces R, G and B. -/
def Obligations.OrderedPixelStep : Prop :=
  ∀ (s : State) (rest : List BusAnswer), s.fsm = .run → isDiffusion s.lat.strategy = false → s.marked = false → s.mem.wf = true →
    s.scanP + 1 < s.lat.pixels → s.lat.base.toNat + 4 * s.lat.pixels ≤ 2 ^ 32 → s.busAnswers = .ok :: .ok :: rest →
    let p := s.scanP
    let n := sideOf s.lat.strategy
    let mv := matrixValue s.lat.strategy (p % s.lat.w.toNat) (p / s.lat.w.toNat)
    let norm := rne64 (rne64 ((mv : Rat) / ((n : Rat) * n - 1)) * 255)
    let adjT := rne64 (s.lat.t + rne64 (norm - 255 / 2))
    let out := if adjT < (pixelLum s.mem s.lat p : Rat) then 255 else 0
    ∃ m,
      pixelStep s = .next { s with mem := m, scanP := p + 1, progress := BitVec.ofNat 32 (p + 1), busAnswers := rest } ∧
      (∀ c, c < 3 → pixelByte m s.lat p c = BitVec.ofNat 8 out) ∧
      (∀ x, (∀ c, c < 3 → x ≠ s.lat.base.toNat + 4 * p + c) → m.read x = s.mem.read x)

/-- R146: the pixel step of the last pixel, with both accesses answered, completes the run in the same step. -/
def Obligations.LastPixelCompletes : Prop :=
  ∀ (s : State) (rest : List BusAnswer), s.fsm = .run → s.scanP + 1 = s.lat.pixels →
    s.lat.base.toNat + 4 * s.lat.pixels ≤ 2 ^ 32 → s.busAnswers = .ok :: .ok :: rest →
    ∃ t, pixelStep s = .next t ∧ t.busy = false ∧ t.fsm = .idle ∧ t.done = true ∧ t.err = s.err ∧ t.errcode = s.errcode ∧
      t.scanP = s.lat.pixels ∧ t.progress = BitVec.ofNat 32 s.lat.pixels ∧ t.faultAddr = s.faultAddr ∧
      t.irq = s.irqEn ∧ pixelStep t = .next t

/-- R161: an error response to the pixel's read aborts the run; memory is unchanged, and PROGRESS and SCAN.P keep the pixel's index. -/
def Obligations.ReadErrorAborts : Prop :=
  ∀ (s : State) (rest : List BusAnswer) (x y z : Bool), s.fsm = .run → s.scanP < s.lat.pixels →
    s.lat.base.toNat + 4 * s.lat.pixels ≤ 2 ^ 32 → s.busAnswers = .error x y z :: rest →
    ∃ t, pixelStep s = .next t ∧ t.busy = false ∧ t.fsm = .idle ∧ t.done = s.done ∧ t.err = true ∧ t.errcode = .busErr ∧
      t.faultAddr = BitVec.ofNat 32 (s.lat.base.toNat + 4 * s.scanP) ∧ t.progress = s.progress ∧ t.scanP = s.scanP ∧
      t.mem = s.mem

/-- R161: an error response to the pixel's write aborts the run; each of R, G and B is old or the pixel's output, as the platform's
answer says (the answer is free: log 6), and every other byte is unchanged. -/
def Obligations.WriteErrorAborts : Prop :=
  ∀ (s : State) (rest : List BusAnswer) (x y z : Bool), s.fsm = .run → s.scanP < s.lat.pixels → s.marked = false →
    s.mem.wf = true → s.lat.base.toNat + 4 * s.lat.pixels ≤ 2 ^ 32 → s.busAnswers = .ok :: .error x y z :: rest →
    let out : Byte := BitVec.ofNat 8 (nextOutput s)
    ∃ t, pixelStep s = .next t ∧
      t.busy = false ∧ t.fsm = .idle ∧ t.done = s.done ∧ t.err = true ∧ t.errcode = .busErr ∧
      t.faultAddr = BitVec.ofNat 32 (s.lat.base.toNat + 4 * s.scanP) ∧ t.progress = s.progress ∧ t.scanP = s.scanP ∧
      pixelByte t.mem s.lat s.scanP 0 = (if x then out else pixelByte s.mem s.lat s.scanP 0) ∧
      pixelByte t.mem s.lat s.scanP 1 = (if y then out else pixelByte s.mem s.lat s.scanP 1) ∧
      pixelByte t.mem s.lat s.scanP 2 = (if z then out else pixelByte s.mem s.lat s.scanP 2) ∧
      (∀ a, (∀ c, c < 3 → a ≠ s.lat.base.toNat + 4 * s.scanP + c) → t.mem.read a = s.mem.read a)

/-- R145, R148: the ENGINE's turn, which comes by its event, and whenever no event is left (log 2), is its pixel step, whatever FSM is.
While FSM = RUN, in a state that meets the invariant, that step raises SCAN.P by one or ends the run; when FSM = IDLE the ENGINE has no
step, and its turn changes nothing but the queue. -/
def Obligations.EngineTurnIsItsPixelStep : Prop :=
  ∀ s : State,
    (s.inputs = [] → step s = pixelStep s) ∧
    (∀ rest, s.inputs = .engine :: rest → step s = pixelStep { s with inputs := rest }) ∧
    (s.fsm = .idle →
      (s.inputs = [] → step s = .next s) ∧
      (∀ rest, s.inputs = .engine :: rest → step s = .next { s with inputs := rest })) ∧
    (StateInv s → s.fsm = .run →
      (s.inputs = [] ∨ s.inputs.head? = some .engine) →
      ∃ t, step s = .next t ∧ t.inputs = s.inputs.tail ∧
        (t.fsm = .run ∧ t.scanP = s.scanP + 1 ∨ t.fsm = .idle ∧ (t.done = true ∨ t.err = true)))

/-- R45, R52: however many moves the ENGINE makes, complete or aborted, every byte outside the buffer and every A byte keep their value,
and so do the registers it does not own. -/
def Obligations.EngineWritesOnlyRgbOfItsBuffer : Prop :=
  ∀ (k : Nat) (s t : State), engineSteps k s = .next t →
    (∀ a, (∀ p c, p < s.lat.pixels → c < 3 → a ≠ s.lat.base.toNat + 4 * p + c) → t.mem.read a = s.mem.read a) ∧
    t.irqEn = s.irqEn ∧ t.algo = s.algo ∧ t.width = s.width ∧ t.height = s.height ∧ t.threshold = s.threshold ∧
    t.bufBase = s.bufBase ∧ t.bufLen = s.bufLen ∧ t.lat = s.lat ∧ t.params = s.params ∧ t.inputs = s.inputs ∧
    t.hostCache = s.hostCache ∧ t.resp = s.resp ∧ t.hostRace = s.hostRace ∧ t.bufferNotMemory = s.bufferNotMemory

/-! Invariants of every step. -/

/-- R42: the state right after reset meets the invariant. -/
def Obligations.ResetMeetsInvariant : Prop := StateInv State.reset

/-- R30, R31, R37, R16: every step from a state that meets the invariant gives a state that meets it. -/
def Obligations.StepKeepsInvariant : Prop :=
  ∀ s t : State, StateInv s → step s = .next t → StateInv t

/-- R39, R45, R49, R56: from a state that meets the invariant every step gives a next state: none asks for an address beyond memory,
and none is refused. -/
def Obligations.InvariantStepsNeverStop : Prop :=
  ∀ s : State, StateInv s → ∃ t, step s = .next t

/-- R40: the parameters are fixed and never change. -/
def Obligations.ParametersNeverChange : Prop :=
  ∀ s t : State, step s = .next t → t.params = s.params

/-- R172, R180: no step clears a ModelFault mark, not even reset. -/
def Obligations.ModelFaultMarksStay : Prop :=
  ∀ s t : State, step s = .next t →
    (s.hostRace = true → t.hostRace = true) ∧ (s.bufferNotMemory = true → t.bufferNotMemory = true)

/-- R32: while a diffusion run is in progress, every ERRBUF entry stays a binary64 value. -/
def Obligations.ErrbufHoldsBinary64Values : Prop :=
  ∀ s t : State, StateInv s → s.fsm = .run → isDiffusion s.lat.strategy = true → (∀ v ∈ s.errbuf, isF64 v = true) →
    step s = .next t → t.fsm = .run → ∀ v ∈ t.errbuf, isF64 v = true

/-! Runs. -/

/-- R141, R144, R183, R186: from a clean launch with passing operands, whatever DONE, ERR, ERRCODE, PROGRESS and FAULT_ADDR hold, each
command, and the step of the CTRL write that issues it, starts a run of its strategy. -/
def Obligations.CleanLaunchStartsARun : Prop :=
  ∀ (s : State) (a : Strategy) (irqEn : Bool), LaunchWf s → CleanLaunch s → ArgsPass s →
    (∃ t, exec (a.instr irqEn) s = .next t ∧ RunStart t ∧ t.lat.strategy = a ∧ t.mem = s.mem) ∧
    (∀ rest, s.inputs = ctrlEvent (commandWord a irqEn) :: rest →
      ∃ t, IssuesCommand s t ∧ RunStart t ∧ t.lat.strategy = a ∧ t.mem = s.mem ∧ t.inputs = rest)

/-- R64, R163, R183, R186: a command issued from a clean launch does what the ENGINE alone would do, whatever moves of the other agents
lie between its steps, and whatever DONE, ERR, ERRCODE, PROGRESS and FAULT_ADDR held before it. In every state of the run no mark is set, and the scan, the buffer and the flags are those after exactly SCAN.P
ENGINE steps; the end of the run is valid, and its observation is that of at most W×H ENGINE steps. A rejected command leaves its buffer
as it was. The command has at most one observation. What counts as an access of the host's caches is the model's (log 15). -/
def Obligations.CleanRunIsTheEnginesAlone : Prop :=
  ∀ s₀ s : State, LaunchWf s₀ → CleanLaunch s₀ → IssuesCommand s₀ s →
    (∀ t, WhileRunning s t → t.marked = false ∧
      ∃ u, engineSteps t.scanP s = .next u ∧ u.fsm = .run ∧ u.scanP = t.scanP ∧ observe u = observe t) ∧
    (∀ s₁, RunEnd s₀ s₁ → ValidEnd s₀ s₁ ∧
      ∃ k u, k ≤ s.lat.pixels ∧ engineSteps k s = .next u ∧ u.fsm = .idle ∧ observe u = observe s₁) ∧
    (s.fsm = .idle → s.mem = s₀.mem ∧ (observeRejected s).buffer = (observeRejected s₀).buffer ∧ s.done = false ∧ s.err = true ∧
      s.progress = 0 ∧ s.faultAddr = 0) ∧
    (∀ o o', CommandObservation s₀ o → CommandObservation s₀ o' → o = o')

/-- R148, R164: every run ends after at most as many ENGINE steps as pixels are left, with DONE or ERR; a run without a ModelFault
mark ends without one (R186). The last clause is the model's (log 2: where no event is left, the ENGINE moves): so many steps of the
machine then end it so. -/
def Obligations.EveryRunEnds : Prop :=
  ∀ s : State, StateInv s → s.fsm = .run →
    ∃ k t, k ≤ s.lat.pixels - s.scanP ∧ engineSteps k s = .next t ∧ t.fsm = .idle ∧ t.busy = false ∧
      (t.done = true ∨ t.err = true) ∧ (t.done = true → t.progress = BitVec.ofNat 32 s.lat.pixels) ∧
      (t.err = true → t.faultAddr = BitVec.ofNat 32 (s.lat.base.toNat + 4 * t.progress.toNat)) ∧
      (s.marked = false → t.marked = false) ∧ (s.inputs = [] → machineSteps k s = .next t)

/-- R118, R134: after a complete run every pixel has R = G = B in {0, 255} and its A byte is unchanged. -/
def Obligations.CompleteRunIsBinary : Prop :=
  ∀ (k : Nat) (s t : State), RunStart s → engineSteps k s = .next t → t.done = true →
    ∀ p, p < s.lat.pixels → BinaryPixel t.mem s.lat p ∧ pixelByte t.mem s.lat p 3 = pixelByte s.mem s.lat p 3

/-- R124, R125, R127, R147, R161: after any number of the ENGINE's steps of an ordered run, unfinished, complete or aborted, each scanned
pixel's output depends on its own luminance and position only, as the buffer held them when the command was accepted, and the others
hold their input bytes, but for the pixel of an abort. -/
def Obligations.OrderedRunMatchesPixelwise : Prop :=
  ∀ (k : Nat) (s t : State), RunStart s → isDiffusion s.lat.strategy = false → engineSteps k s = .next t →
    ScannedTo
      (fun p => BitVec.ofNat 8
        (orderedOut s.lat.strategy s.lat.t (p % s.lat.w.toNat) (p / s.lat.w.toNat) (pixelLum s.mem s.lat p)))
      s t

/-- R103 to R109, R147, R161: after any number of the ENGINE's steps of a diffusion run, unfinished, complete or aborted, the scanned
pixels hold the outputs of the reference scan over the luminances the buffer held when the command was accepted, and the others hold
their input bytes, but for the pixel of an abort. -/
def Obligations.DiffusionRunMatchesReference : Prop :=
  ∀ (k : Nat) (s t : State), RunStart s → isDiffusion s.lat.strategy = true → engineSteps k s = .next t →
    let outs := (referenceScan s.params.productForm s.lat.w.toNat s.lat.h.toNat s.lat.t (kernelOf s.lat.strategy)
      (pixelLum s.mem s.lat) s.lat.pixels).2
    outs.length = s.lat.pixels ∧ ScannedTo (fun p => BitVec.ofNat 8 ((outs[p]?).getD 0)) s t

/-- R118, R134, R186: two complete runs of the same strategy with the same latched operands, the same product form and the same buffer
end with the same observation, whatever else their states hold. -/
def Obligations.SameInputsSameObservation : Prop :=
  ∀ (k₁ k₂ : Nat) (s₁ s₂ t₁ t₂ : State), RunStart s₁ → RunStart s₂ → s₁.lat = s₂.lat →
    s₁.params.productForm = s₂.params.productForm →
    (∀ a, s₁.lat.base.toNat ≤ a → a < s₁.lat.base.toNat + 4 * s₁.lat.pixels → s₁.mem.read a = s₂.mem.read a) →
    engineSteps k₁ s₁ = .next t₁ → t₁.done = true → engineSteps k₂ s₂ = .next t₂ → t₂.done = true →
    observe t₁ = observe t₂

/-- R152: a diffusion run with 0 ≤ T ≤ 254 over an image whose every pixel is black or white leaves memory as it is, at every step of
it, complete or aborted; an ordered command need not: DITHER.BAYER2 with T = 127 turns a black pixel at mv = 0 white. -/
def Obligations.DiffusionFixesBinaryImages : Prop :=
  (∀ (k : Nat) (s t : State), RunStart s → isDiffusion s.lat.strategy = true → 0 ≤ s.lat.t → s.lat.t ≤ 254 →
    (∀ p, p < s.lat.pixels → BinaryPixel s.mem s.lat p) → engineSteps k s = .next t →
    ∀ a, t.mem.read a = s.mem.read a) ∧
  orderedOut .bayer2 127 0 0 0 = 255

/-! Memory beside the engine. -/

/-- R62, R172: an access of the host or another agent to a byte of a run's buffer while BUSY = 1 records HOST_RACE and gets no value;
the registers and every byte outside the buffer are unchanged. -/
def Obligations.BufferAccessWhileBusyIsHostRace : Prop :=
  ∀ (s : State) (who : Requester) (op : MemOp) (rest : List Event), s.inputs = .mem who op :: rest → s.busy = true →
    s.lat.base.toNat ≤ opAddr op → opAddr op < s.lat.base.toNat + 4 * s.lat.pixels →
    ∃ t, step s = .next t ∧ t.hostRace = true ∧ t.resp = .noValue ∧ t.bufferNotMemory = s.bufferNotMemory ∧
      t.irqEn = s.irqEn ∧ t.algo = s.algo ∧ t.busy = s.busy ∧ t.done = s.done ∧ t.err = s.err ∧ t.errcode = s.errcode ∧
      t.width = s.width ∧ t.height = s.height ∧ t.threshold = s.threshold ∧ t.bufBase = s.bufBase ∧ t.bufLen = s.bufLen ∧
      t.progress = s.progress ∧ t.faultAddr = s.faultAddr ∧ t.fsm = s.fsm ∧ t.scanP = s.scanP ∧ t.lat = s.lat ∧
      t.errbuf = s.errbuf ∧ t.params = s.params ∧ t.inputs = rest ∧
      (∀ a, a < s.lat.base.toNat ∨ s.lat.base.toNat + 4 * s.lat.pixels ≤ a → t.mem.read a = s.mem.read a)

/-- R5, R61, R63: with PLATFORM_COHERENT = true the host's read of an ordinary byte outside a run's buffer returns the byte the memory
port holds, the engine's writes among them, and its write is in memory at once; nothing else changes. That this holds once BUSY is 0,
before any STATUS read, is the model's choice (log 32: R63 promises it after that read). -/
def Obligations.CoherentHostSharesMemory : Prop :=
  ∀ (s : State) (a : Word) (b : Byte) (rest : List Event), s.params.coherent = true → s.races a.toNat = false →
    ordinaryRange s.params a.toNat 1 = true → s.mem.wf = true →
    (s.inputs = .mem .host (.read a) :: rest →
      step s = .next { s with inputs := rest, resp := .memData (s.mem.read a.toNat) }) ∧
    (s.inputs = .mem .host (.write a b) :: rest →
      ∃ m, step s = .next { s with inputs := rest, mem := m, resp := .memWritten } ∧
        ∀ x, m.read x = if x = a.toNat then b else s.mem.read x)

/-- R61, R63, R68, for the model's own host copies (log 15; log 32 before a STATUS read): with PLATFORM_COHERENT = false a host write
leaves memory as it is until the host's maintenance of that byte, which then puts it there. A clean copy that differs from memory, as
where the ENGINE wrote the byte after the host read it, answers the host's reads until it is discarded; the read after that returns
memory's byte. -/
def Obligations.HostMaintenanceMakesWritesVisible : Prop :=
  ∀ (s : State) (a : Word) (b : Byte) (rest : List Event), s.params.coherent = false → s.races a.toNat = false →
    ordinaryRange s.params a.toNat 1 = true → s.mem.wf = true →
    (s.inputs = .mem .host (.write a b) :: .clean a :: .discard a :: .mem .host (.read a) :: rest →
      ∃ t₁ t₂ t₃ t₄, step s = .next t₁ ∧ step t₁ = .next t₂ ∧ step t₂ = .next t₃ ∧ step t₃ = .next t₄ ∧
        t₁.mem = s.mem ∧ (∀ x, t₂.mem.read x = if x = a.toNat then b else s.mem.read x) ∧ t₃.mem = t₂.mem ∧
        t₄.mem = t₂.mem ∧ t₄.resp = .memData b) ∧
    (s.inputs = .mem .host (.read a) :: .discard a :: .mem .host (.read a) :: rest →
      ∀ c, findCopy a.toNat s.hostCache = some c → c.dirty = false →
        ∃ t₁ t₂ t₃, step s = .next t₁ ∧ step t₁ = .next t₂ ∧ step t₂ = .next t₃ ∧ t₁.resp = .memData c.byte ∧
          t₃.resp = .memData (s.mem.read a.toNat) ∧ t₃.mem = s.mem)
end

