-- ==== Sys2Proof/Laws/Decode.lean ====
section
/-! SUPPORT. What the decoder can answer, and the codes of the strategies. -/

namespace Sys2Proof

/-- The code of a strategy names it. -/
@[simp] theorem Strategy.ofCode_code (a : Strategy) : Strategy.ofCode a.code = some a := by
  cases a <;> rfl

/-- The code a strategy has is the code it was read from. -/
theorem Strategy.code_of_ofCode {c : BitVec 4} {a : Strategy} (h : Strategy.ofCode c = some a) : a.code = c := by
  revert c a
  decide

/-- Codes of accepted strategies are below 8. -/
theorem Strategy.code_lt (a : Strategy) : a.code.toNat < 8 := by
  cases a <;> decide

/-- Everything the decoder can answer (R81). -/
theorem decodeWord_cases (d : Word) :
    (startBit d = false ∧ decodeWord d = .ok (.ctrlSet (irqBit d) (algoField d))) ∨
    (startBit d = true ∧ (rsvdLo d ≠ 0 ∨ rsvdHi d ≠ 0) ∧ decodeWord d = .error .rsvdBits) ∨
    (startBit d = true ∧ rsvdLo d = 0 ∧ rsvdHi d = 0 ∧ Strategy.ofCode (algoField d) = none ∧
      decodeWord d = .error .badAlgo) ∨
    (∃ a, startBit d = true ∧ rsvdLo d = 0 ∧ rsvdHi d = 0 ∧ Strategy.ofCode (algoField d) = some a ∧
      decodeWord d = .ok (a.instr (irqBit d))) := by
  unfold decodeWord
  by_cases hs : startBit d = false
  · exact .inl ⟨hs, by rw [if_pos hs]⟩
  · have hs' : startBit d = true := by simpa using hs
    by_cases hr : rsvdLo d ≠ 0 ∨ rsvdHi d ≠ 0
    · exact .inr (.inl ⟨hs', hr, by rw [if_neg hs, if_pos hr]⟩)
    · have hr' : rsvdLo d = 0 ∧ rsvdHi d = 0 := by simpa [not_or] using hr
      rw [if_neg hs, if_neg hr]
      cases h : Strategy.ofCode (algoField d) with
      | none => exact .inr (.inr (.inl ⟨hs', hr'.1, hr'.2, rfl, rfl⟩))
      | some a => exact .inr (.inr (.inr ⟨a, hs', hr'.1, hr'.2, rfl, rfl⟩))

end Sys2Proof
end

