-- ==== Sys2Proof/Laws/F64.lean ====
section
/-! SUPPORT. The arithmetic of R10 and R11 in Mathlib's terms: powers of two, the nearest integer, the small functions. -/

namespace Sys2Proof.Machine

open Sys2Proof

theorem absF64_eq_abs (v : Rat) : absF64 v = |v| := by
  unfold absF64
  split
  · rename_i h
    rw [abs_of_neg h]
  · rename_i h
    rw [abs_of_nonneg (not_lt.1 h)]

theorem pow2_eq_zpow (k : Int) : pow2 k = (2 : Rat) ^ k := by
  cases k with
  | ofNat n => simp [pow2]
  | negSucc n =>
    simp only [pow2, zpow_negSucc, Rat.mkRat_eq_div]
    push_cast
    rw [one_div]

theorem pow2_pos (k : Int) : 0 < pow2 k := by
  rw [pow2_eq_zpow]
  positivity

@[simp] theorem rne64_zero : rne64 0 = 0 := by simp [rne64]

/-- The nearest integer is within a half. -/
theorem abs_nearestEven_sub_le (m : Rat) : |(nearestEven m : Rat) - m| ≤ 1 / 2 := by
  have h1 : ((m.floor : Int) : Rat) ≤ m := Rat.floor_le m
  have h2 : m < (m.floor : Rat) + 1 := by exact_mod_cast Rat.lt_floor_add_one m
  unfold nearestEven
  dsimp only
  split
  · rw [abs_le]; constructor <;> linarith
  · split
    · push_cast
      rw [abs_le]; constructor <;> linarith
    · split
      · rw [abs_le]; constructor <;> linarith
      · push_cast
        rw [abs_le]; constructor <;> linarith

/-- An integer is its own nearest integer. -/
@[simp] theorem nearestEven_intCast (n : Int) : nearestEven (n : Rat) = n := by
  unfold nearestEven
  simp [Rat.floor_intCast]

theorem toF64_natCast (n : Nat) : toF64 (n : Int) = (n : Rat) := by simp [toF64]

/-- clamp gives a value between its bounds. -/
theorem clampF64_mem {v lo hi : F64} (h : lo ≤ hi) : lo ≤ clampF64 v lo hi ∧ clampF64 v lo hi ≤ hi := by
  unfold clampF64
  split
  · exact ⟨le_rfl, h⟩
  · split
    · exact ⟨h, le_rfl⟩
    · constructor <;> linarith

/-- clamp leaves a value between its bounds. -/
theorem clampF64_of_mem {v lo hi : F64} (h1 : lo ≤ v) (h2 : v ≤ hi) : clampF64 v lo hi = v := by
  simp [clampF64, not_lt.2 h1, not_lt.2 h2]

theorem binarize_eq (g t : F64) : binarize g t = if t < g then 255 else 0 := by
  simp [binarize, bin]

/-- The two outputs. -/
theorem binarize_cases (g t : F64) : binarize g t = 0 ∨ binarize g t = 255 := by
  rw [binarize_eq]
  split <;> simp

theorem adjustedGray_mem (l : Nat) (e0 : F64) : 0 ≤ adjustedGray l e0 ∧ adjustedGray l e0 ≤ 255 :=
  clampF64_mem (by norm_num)

end Sys2Proof.Machine
end

