-- ==== Sys2Proof/Laws/Diffusion.lean ====
section
/-! SUPPORT. The neighbours of a pixel and the distribution of its error into ERRBUF (R108, R109). -/

namespace Sys2Proof.Machine

open Sys2Proof

/-- When an entry reaches a pixel, and which (R108). -/
theorem neighbour_eq_some {w h x y q : Nat} {k : KernelEntry} : neighbour w h x y k = some q ↔
    0 ≤ (x : Int) + k.dx ∧ (x : Int) + k.dx < w ∧ 0 ≤ (y : Int) + k.dy ∧ (y : Int) + k.dy < h ∧
      q = (((y : Int) + k.dy) * w + ((x : Int) + k.dx)).toNat := by
  unfold neighbour
  dsimp only
  split
  · rename_i hc
    simp only [Option.some.injEq]
    exact ⟨fun hq => ⟨hc.1, hc.2.1, hc.2.2.1, hc.2.2.2, hq.symm⟩, fun hq => hq.2.2.2.2.symm⟩
  · rename_i hc
    simp only [reduceCtorEq, false_iff]
    exact fun hq => hc ⟨hq.1, hq.2.1, hq.2.2.1, hq.2.2.2.1⟩

/-- A reached pixel is inside the image (R108). -/
theorem neighbour_lt {w h x y q : Nat} {k : KernelEntry} (hq : neighbour w h x y k = some q) : q < w * h := by
  obtain ⟨h1, h2, h3, h4, rfl⟩ := neighbour_eq_some.1 hq
  generalize hX : (x : Int) + k.dx = X at *
  generalize hY : (y : Int) + k.dy = Y at *
  have hYX : Y * w + X < (w * h : Nat) := by
    push_cast
    nlinarith
  have h0 : 0 ≤ Y * w + X := by positivity
  omega

@[simp] theorem length_distributeEntry (form : ProductForm) (w h x y : Nat) (e : F64) (buf : List F64) (k : KernelEntry) :
    (distributeEntry form w h x y e buf k).length = buf.length := by
  unfold distributeEntry
  split <;> simp

/-- The distribution keeps the size of ERRBUF. -/
@[simp] theorem length_distribute (form : ProductForm) (w h x y : Nat) (e : F64) (ks : List KernelEntry) (buf : List F64) :
    (distribute form w h x y e ks buf).length = buf.length := by
  unfold distribute
  induction ks generalizing buf with
  | nil => rfl
  | cons k ks ih => rw [List.foldl_cons, ih, length_distributeEntry]

/-- One entry's effect on one element of ERRBUF. -/
theorem getElem?_distributeEntry (form : ProductForm) (w h x y : Nat) (e : F64) (buf : List F64) (k : KernelEntry) (q : Nat) :
    (distributeEntry form w h x y e buf k)[q]? =
      if neighbour w h x y k = some q then buf[q]?.map (fun v => fadd v (contrib form e k)) else buf[q]? := by
  unfold distributeEntry
  cases hk : neighbour w h x y k with
  | none => simp
  | some p =>
    simp only [List.getElem?_modify, Option.some.injEq]
    split <;> simp

/-- A pixel that no entry reaches keeps its ERRBUF entry. -/
theorem getElem?_distribute_of_not_reached (form : ProductForm) (w h x y : Nat) (e : F64) (ks : List KernelEntry)
    (buf : List F64) (q : Nat) (hq : ∀ k ∈ ks, neighbour w h x y k ≠ some q) :
    (distribute form w h x y e ks buf)[q]? = buf[q]? := by
  unfold distribute
  induction ks generalizing buf with
  | nil => rfl
  | cons k ks ih =>
    rw [List.foldl_cons, ih _ (fun k' hk' => hq k' (List.mem_cons_of_mem _ hk')), getElem?_distributeEntry,
      if_neg (hq k (List.mem_cons_self ..))]

/-- The offsets of a kernel's entries are distinct (R109). -/
theorem kernel_offsets_distinct (a : Strategy) : (kernelOf a).Pairwise (fun k k' => ¬(k.dx = k'.dx ∧ k.dy = k'.dy)) := by
  cases a <;> decide

/-- Every entry of a kernel points to a later pixel, at most two columns aside and two rows down (R109, R115). -/
theorem kernel_offsets_ahead (a : Strategy) : ∀ k ∈ kernelOf a,
    -2 ≤ k.dx ∧ k.dx ≤ 2 ∧ 0 ≤ k.dy ∧ k.dy ≤ 2 ∧ (0 < k.dy ∨ 0 < k.dx) := by
  cases a <;> decide

/-- Two entries with distinct offsets reach distinct pixels (R109). -/
theorem neighbour_inj {w h x y q : Nat} {k k' : KernelEntry} (hk : neighbour w h x y k = some q)
    (hk' : neighbour w h x y k' = some q) : k.dx = k'.dx ∧ k.dy = k'.dy := by
  obtain ⟨a1, a2, a3, -, a5⟩ := neighbour_eq_some.1 hk
  obtain ⟨b1, b2, b3, -, b5⟩ := neighbour_eq_some.1 hk'
  have p1 : 0 ≤ ((y : Int) + k.dy) * w + ((x : Int) + k.dx) := by positivity
  have p2 : 0 ≤ ((y : Int) + k'.dy) * w + ((x : Int) + k'.dx) := by positivity
  have he : ((y : Int) + k.dy) * w + ((x : Int) + k.dx) = ((y : Int) + k'.dy) * w + ((x : Int) + k'.dx) := by omega
  have hy : (y : Int) + k.dy = y + k'.dy := by
    rcases lt_trichotomy ((y : Int) + k.dy) (y + k'.dy) with hlt | heq | hgt
    · nlinarith
    · exact heq
    · nlinarith
  rw [hy] at he
  omega

/-- The pixel an entry reaches gets that entry's contribution and no other (R108, R109). -/
theorem getElem?_distribute_of_reached (form : ProductForm) {w h x y q : Nat} (e : F64) {ks : List KernelEntry}
    (buf : List F64) {k : KernelEntry} (hk : k ∈ ks)
    (hp : ks.Pairwise (fun k k' => ¬(k.dx = k'.dx ∧ k.dy = k'.dy))) (hq : neighbour w h x y k = some q) :
    (distribute form w h x y e ks buf)[q]? = buf[q]?.map (fun v => fadd v (contrib form e k)) := by
  induction ks generalizing buf with
  | nil => cases hk
  | cons k₀ ks ih =>
    rw [List.pairwise_cons] at hp
    show (distribute form w h x y e ks (distributeEntry form w h x y e buf k₀))[q]? = _
    rcases List.mem_cons.1 hk with rfl | hk'
    · rw [getElem?_distribute_of_not_reached, getElem?_distributeEntry, if_pos hq]
      exact fun k' hk' hq' => hp.1 k' hk' (neighbour_inj hq hq')
    · rw [ih _ hk' hp.2, getElem?_distributeEntry, if_neg]
      exact fun hq' => hp.1 k hk' (neighbour_inj hq' hq)

/-- The diffusion of a zero error leaves an ERRBUF of zeros as it is. -/
theorem contrib_zero (form : ProductForm) (k : KernelEntry) : contrib form 0 k = 0 := by
  cases form <;> simp [contrib, fmul, fdiv]

end Sys2Proof.Machine
end

