-- ==== Sys2Proof/Laws/Memory.lean ====
section
/-! SUPPORT. The laws of memory: a write changes the byte it writes and no other, and every operation keeps the canonical form. -/

namespace Sys2Proof.Machine

open Sys2Proof

section read
variable (m : Memory) (a c : Nat) (b : Byte)

theorem Memory.read_nil : Memory.read [] a = Memory.background := rfl

/-- A cell in front of a memory is read at its own address. -/
theorem Memory.read_consCell_of_ne (h : c ≠ a) : (Memory.consCell a b m).read c = m.read c := by
  unfold Memory.consCell
  split
  · rfl
  · simp [Memory.read, Ne.symm h]

/-- A write leaves every other byte as it was. -/
theorem Memory.read_write_of_ne (h : c ≠ a) : (m.write a b).read c = m.read c := by
  induction m with
  | nil => exact Memory.read_consCell_of_ne [] a c b h
  | cons cell rest ih =>
    obtain ⟨k, v⟩ := cell
    unfold Memory.write
    split
    · exact Memory.read_consCell_of_ne _ a c b h
    · split
      · rename_i hk
        rw [Memory.read_consCell_of_ne _ a c b h]
        simp [Memory.read, ← hk, Ne.symm h]
      · simp only [Memory.read]
        split
        · rfl
        · exact ih

end read

/-- The canonical form above a bound, cell by cell. -/
theorem Memory.wfAbove_cons (lo : Option Nat) (a : Nat) (b : Byte) (m : Memory) :
    Memory.wfAbove lo ((a, b) :: m) = true ↔
      (∀ l, lo = some l → l < a) ∧ a < memoryLimit ∧ b ≠ Memory.background ∧ Memory.wfAbove (some a) m = true := by
  cases lo <;> simp [Memory.wfAbove, and_assoc]

/-- A lower bound is weaker. -/
theorem Memory.wfAbove_mono {lo lo' : Option Nat} {m : Memory} (h : Memory.wfAbove lo m = true)
    (hle : ∀ l', lo' = some l' → ∃ l, lo = some l ∧ l' ≤ l) : Memory.wfAbove lo' m = true := by
  cases m with
  | nil => rfl
  | cons cell rest =>
    obtain ⟨a, b⟩ := cell
    rw [Memory.wfAbove_cons] at h ⊢
    refine ⟨fun l' hl' => ?_, h.2⟩
    obtain ⟨l, hl, hll⟩ := hle l' hl'
    exact lt_of_le_of_lt hll (h.1 l hl)

/-- Above its bound a canonical memory lists nothing at or below it. -/
theorem Memory.read_of_wfAbove {l a : Nat} {m : Memory} (h : Memory.wfAbove (some l) m = true) (ha : a ≤ l) :
    m.read a = Memory.background := by
  induction m generalizing l with
  | nil => rfl
  | cons cell rest ih =>
    obtain ⟨k, v⟩ := cell
    rw [Memory.wfAbove_cons] at h
    have hk := h.1 l rfl
    simp only [Memory.read, if_neg (show ¬k = a by omega)]
    exact ih h.2.2.2 (by omega)

/-- A cell in front keeps the canonical form. -/
theorem Memory.wfAbove_consCell {lo : Option Nat} {a : Nat} {b : Byte} {m : Memory} (ha : ∀ l, lo = some l → l < a)
    (hlim : a < memoryLimit) (h : Memory.wfAbove (some a) m = true) : Memory.wfAbove lo (Memory.consCell a b m) = true := by
  unfold Memory.consCell
  split
  · exact Memory.wfAbove_mono h (fun l' hl' => ⟨a, rfl, le_of_lt (ha l' hl')⟩)
  · rename_i hb
    exact (Memory.wfAbove_cons lo a b m).2 ⟨ha, hlim, hb, h⟩

/-- A write keeps the canonical form above any bound below its address. -/
theorem Memory.wfAbove_write {lo : Option Nat} {m : Memory} {a : Nat} {b : Byte} (h : Memory.wfAbove lo m = true)
    (ha : ∀ l, lo = some l → l < a) (hlim : a < memoryLimit) : Memory.wfAbove lo (m.write a b) = true := by
  induction m generalizing lo with
  | nil => exact Memory.wfAbove_consCell ha hlim rfl
  | cons cell rest ih =>
    obtain ⟨k, v⟩ := cell
    obtain ⟨h1, h2, h3, h4⟩ := (Memory.wfAbove_cons lo k v rest).1 h
    unfold Memory.write
    split
    · rename_i hak
      refine Memory.wfAbove_consCell ha hlim ((Memory.wfAbove_cons _ k v rest).2 ⟨fun l hl => ?_, h2, h3, h4⟩)
      cases hl
      exact hak
    · split
      · rename_i hak
        subst hak
        exact Memory.wfAbove_consCell ha hlim h4
      · refine (Memory.wfAbove_cons lo k v _).2 ⟨h1, h2, h3, ih h4 (fun l hl => ?_)⟩
        cases hl
        omega

/-- A write keeps the canonical form. -/
theorem Memory.write_wf {m : Memory} {a : Nat} {b : Byte} (h : m.wf = true) (hlim : a < memoryLimit) :
    (m.write a b).wf = true :=
  Memory.wfAbove_write h (fun _ hl => by cases hl) hlim

/-- In a canonical memory the byte written is the byte read. -/
theorem Memory.read_write_self_of_wfAbove {lo : Option Nat} {m : Memory} (a : Nat) (b : Byte)
    (h : Memory.wfAbove lo m = true) : (m.write a b).read a = b := by
  have cons_case : ∀ m' : Memory, Memory.wfAbove (some a) m' = true → (Memory.consCell a b m').read a = b := by
    intro m' hm'
    unfold Memory.consCell
    split
    · rename_i hb
      rw [hb]
      exact Memory.read_of_wfAbove hm' le_rfl
    · simp [Memory.read]
  induction m generalizing lo with
  | nil => exact cons_case [] rfl
  | cons cell rest ih =>
    obtain ⟨k, v⟩ := cell
    obtain ⟨h1, h2, h3, h4⟩ := (Memory.wfAbove_cons lo k v rest).1 h
    unfold Memory.write
    split
    · rename_i hak
      exact cons_case _ ((Memory.wfAbove_cons _ k v rest).2 ⟨fun l hl => by cases hl; exact hak, h2, h3, h4⟩)
    · split
      · rename_i hak
        exact cons_case rest (hak ▸ h4)
      · simp only [Memory.read, if_neg (show ¬k = a by omega)]
        exact ih h4

/-- In a canonical memory the byte written is the byte read. -/
theorem Memory.read_write_self {m : Memory} (a : Nat) (b : Byte) (h : m.wf = true) : (m.write a b).read a = b :=
  Memory.read_write_self_of_wfAbove a b h

/-- One byte of a memory after a write. -/
theorem Memory.read_write {m : Memory} (a c : Nat) (b : Byte) (h : m.wf = true) :
    (m.write a b).read c = if c = a then b else m.read c := by
  split
  · subst c
    exact Memory.read_write_self a b h
  · rename_i hc
    exact Memory.read_write_of_ne m a c b hc

/-- A masked write keeps the canonical form. -/
theorem Memory.writeIf_wf {m : Memory} {c : Bool} {a : Nat} {b : Byte} (h : m.wf = true) (hlim : a < memoryLimit) :
    (m.writeIf c a b).wf = true := by
  unfold Memory.writeIf
  split
  · exact Memory.write_wf h hlim
  · exact h

/-- One byte of a memory after a masked write. -/
theorem Memory.read_writeIf {m : Memory} (mask : Bool) (a c : Nat) (b : Byte) (h : m.wf = true) :
    (m.writeIf mask a b).read c = if c = a ∧ mask = true then b else m.read c := by
  unfold Memory.writeIf
  cases mask
  · simp
  · simp [Memory.read_write a c b h]

/-- A masked write leaves every other byte as it was. -/
theorem Memory.read_writeIf_of_ne (m : Memory) (mask : Bool) (a c : Nat) (b : Byte) (h : c ≠ a) :
    (m.writeIf mask a b).read c = m.read c := by
  unfold Memory.writeIf
  split
  · exact Memory.read_write_of_ne m a c b h
  · rfl

/-- A pixel write keeps the canonical form. -/
theorem Memory.writeRgb_wf {m : Memory} {a : Nat} {r g b : Byte} {mr mg mb : Bool} (h : m.wf = true)
    (hlim : a + 4 ≤ memoryLimit) : (m.writeRgb a r g b mr mg mb).wf = true :=
  Memory.writeIf_wf (Memory.writeIf_wf (Memory.writeIf_wf h (by omega)) (by omega)) (by omega)

/-- A pixel write leaves every byte but R, G and B as it was. -/
theorem Memory.read_writeRgb_of_ne (m : Memory) {a c : Nat} (r g b : Byte) (mr mg mb : Bool)
    (h : c < a ∨ a + 3 ≤ c) : (m.writeRgb a r g b mr mg mb).read c = m.read c := by
  unfold Memory.writeRgb
  rw [Memory.read_writeIf_of_ne _ _ _ _ _ (by omega), Memory.read_writeIf_of_ne _ _ _ _ _ (by omega),
    Memory.read_writeIf_of_ne _ _ _ _ _ (by omega)]

/-- One byte of a memory after a pixel write. -/
theorem Memory.read_writeRgb {m : Memory} (a c : Nat) (r g b : Byte) (mr mg mb : Bool) (h : m.wf = true)
    (hlim : a + 4 ≤ memoryLimit) :
    (m.writeRgb a r g b mr mg mb).read c =
      if c = a + 2 ∧ mb = true then b
      else if c = a + 1 ∧ mg = true then g
      else if c = a ∧ mr = true then r
      else m.read c := by
  unfold Memory.writeRgb
  rw [Memory.read_writeIf _ _ _ _ (Memory.writeIf_wf (Memory.writeIf_wf h (by omega)) (by omega)),
    Memory.read_writeIf _ _ _ _ (Memory.writeIf_wf h (by omega)), Memory.read_writeIf _ _ _ _ h]

/-- Filling a range keeps the canonical form. -/
theorem Memory.fill_wf {m : Memory} {base : Nat} {f : Nat → Byte} {n : Nat} (h : m.wf = true)
    (hlim : base + n ≤ memoryLimit) : (m.fill base f n).wf = true := by
  induction n with
  | zero => exact h
  | succ n ih => exact Memory.write_wf (ih (by omega)) (by omega)

/-- Filling a range leaves every byte outside it as it was. -/
theorem Memory.read_fill_outside (m : Memory) (base : Nat) (f : Nat → Byte) (n c : Nat) (h : c < base ∨ base + n ≤ c) :
    (m.fill base f n).read c = m.read c := by
  induction n with
  | zero => rfl
  | succ n ih =>
    unfold Memory.fill
    rw [Memory.read_write_of_ne _ _ _ _ (by omega)]
    exact ih (by omega)

/-- Filling a range puts its byte at every address inside it. -/
theorem Memory.read_fill_inside {m : Memory} {base : Nat} {f : Nat → Byte} {n c : Nat} (h : m.wf = true)
    (hlim : base + n ≤ memoryLimit) (hlo : base ≤ c) (hhi : c < base + n) : (m.fill base f n).read c = f c := by
  induction n with
  | zero => omega
  | succ n ih =>
    unfold Memory.fill
    rw [Memory.read_write _ _ _ (Memory.fill_wf h (by omega))]
    split
    · rename_i hc
      rw [hc]
    · exact ih (by omega) (by omega)

/-- Memory with nothing listed is canonical. -/
theorem Memory.nil_wf : Memory.wf [] = true := rfl

/-- Memory at reset is canonical. -/
theorem State.reset_mem_wf : State.reset.mem.wf = true := rfl

end Sys2Proof.Machine
end

