-- ==== Sys2Proof/Laws/State.lean ====
section
/-! SUPPORT. What each update of the state does to each field: one lemma per field per update. -/

namespace Sys2Proof.Machine

open Sys2Proof

section withInputs
variable (s : State) (rest : List Event)
@[simp] theorem State.withInputs_irqEn : (s.withInputs rest).irqEn = s.irqEn := rfl
@[simp] theorem State.withInputs_algo : (s.withInputs rest).algo = s.algo := rfl
@[simp] theorem State.withInputs_busy : (s.withInputs rest).busy = s.busy := rfl
@[simp] theorem State.withInputs_done : (s.withInputs rest).done = s.done := rfl
@[simp] theorem State.withInputs_err : (s.withInputs rest).err = s.err := rfl
@[simp] theorem State.withInputs_errcode : (s.withInputs rest).errcode = s.errcode := rfl
@[simp] theorem State.withInputs_width : (s.withInputs rest).width = s.width := rfl
@[simp] theorem State.withInputs_height : (s.withInputs rest).height = s.height := rfl
@[simp] theorem State.withInputs_threshold : (s.withInputs rest).threshold = s.threshold := rfl
@[simp] theorem State.withInputs_bufBase : (s.withInputs rest).bufBase = s.bufBase := rfl
@[simp] theorem State.withInputs_bufLen : (s.withInputs rest).bufLen = s.bufLen := rfl
@[simp] theorem State.withInputs_progress : (s.withInputs rest).progress = s.progress := rfl
@[simp] theorem State.withInputs_faultAddr : (s.withInputs rest).faultAddr = s.faultAddr := rfl
@[simp] theorem State.withInputs_fsm : (s.withInputs rest).fsm = s.fsm := rfl
@[simp] theorem State.withInputs_scanP : (s.withInputs rest).scanP = s.scanP := rfl
@[simp] theorem State.withInputs_lat : (s.withInputs rest).lat = s.lat := rfl
@[simp] theorem State.withInputs_errbuf : (s.withInputs rest).errbuf = s.errbuf := rfl
@[simp] theorem State.withInputs_mem : (s.withInputs rest).mem = s.mem := rfl
@[simp] theorem State.withInputs_hostRace : (s.withInputs rest).hostRace = s.hostRace := rfl
@[simp] theorem State.withInputs_bufferNotMemory : (s.withInputs rest).bufferNotMemory = s.bufferNotMemory := rfl
@[simp] theorem State.withInputs_params : (s.withInputs rest).params = s.params := rfl
@[simp] theorem State.withInputs_hostCache : (s.withInputs rest).hostCache = s.hostCache := rfl
@[simp] theorem State.withInputs_inputs : (s.withInputs rest).inputs = rest := rfl
@[simp] theorem State.withInputs_busAnswers : (s.withInputs rest).busAnswers = s.busAnswers := rfl
@[simp] theorem State.withInputs_draws : (s.withInputs rest).draws = s.draws := rfl
@[simp] theorem State.withInputs_resp : (s.withInputs rest).resp = s.resp := rfl
end withInputs

section respond
variable (s : State) (r : Response)
@[simp] theorem State.respond_irqEn : (s.respond r).irqEn = s.irqEn := rfl
@[simp] theorem State.respond_algo : (s.respond r).algo = s.algo := rfl
@[simp] theorem State.respond_busy : (s.respond r).busy = s.busy := rfl
@[simp] theorem State.respond_done : (s.respond r).done = s.done := rfl
@[simp] theorem State.respond_err : (s.respond r).err = s.err := rfl
@[simp] theorem State.respond_errcode : (s.respond r).errcode = s.errcode := rfl
@[simp] theorem State.respond_width : (s.respond r).width = s.width := rfl
@[simp] theorem State.respond_height : (s.respond r).height = s.height := rfl
@[simp] theorem State.respond_threshold : (s.respond r).threshold = s.threshold := rfl
@[simp] theorem State.respond_bufBase : (s.respond r).bufBase = s.bufBase := rfl
@[simp] theorem State.respond_bufLen : (s.respond r).bufLen = s.bufLen := rfl
@[simp] theorem State.respond_progress : (s.respond r).progress = s.progress := rfl
@[simp] theorem State.respond_faultAddr : (s.respond r).faultAddr = s.faultAddr := rfl
@[simp] theorem State.respond_fsm : (s.respond r).fsm = s.fsm := rfl
@[simp] theorem State.respond_scanP : (s.respond r).scanP = s.scanP := rfl
@[simp] theorem State.respond_lat : (s.respond r).lat = s.lat := rfl
@[simp] theorem State.respond_errbuf : (s.respond r).errbuf = s.errbuf := rfl
@[simp] theorem State.respond_mem : (s.respond r).mem = s.mem := rfl
@[simp] theorem State.respond_hostRace : (s.respond r).hostRace = s.hostRace := rfl
@[simp] theorem State.respond_bufferNotMemory : (s.respond r).bufferNotMemory = s.bufferNotMemory := rfl
@[simp] theorem State.respond_params : (s.respond r).params = s.params := rfl
@[simp] theorem State.respond_hostCache : (s.respond r).hostCache = s.hostCache := rfl
@[simp] theorem State.respond_inputs : (s.respond r).inputs = s.inputs := rfl
@[simp] theorem State.respond_busAnswers : (s.respond r).busAnswers = s.busAnswers := rfl
@[simp] theorem State.respond_draws : (s.respond r).draws = s.draws := rfl
@[simp] theorem State.respond_resp : (s.respond r).resp = r := rfl
end respond

section ackDone
variable (s : State) 
@[simp] theorem State.ackDone_irqEn : (s.ackDone).irqEn = s.irqEn := rfl
@[simp] theorem State.ackDone_algo : (s.ackDone).algo = s.algo := rfl
@[simp] theorem State.ackDone_busy : (s.ackDone).busy = s.busy := rfl
@[simp] theorem State.ackDone_done : (s.ackDone).done = false := rfl
@[simp] theorem State.ackDone_err : (s.ackDone).err = s.err := rfl
@[simp] theorem State.ackDone_errcode : (s.ackDone).errcode = s.errcode := rfl
@[simp] theorem State.ackDone_width : (s.ackDone).width = s.width := rfl
@[simp] theorem State.ackDone_height : (s.ackDone).height = s.height := rfl
@[simp] theorem State.ackDone_threshold : (s.ackDone).threshold = s.threshold := rfl
@[simp] theorem State.ackDone_bufBase : (s.ackDone).bufBase = s.bufBase := rfl
@[simp] theorem State.ackDone_bufLen : (s.ackDone).bufLen = s.bufLen := rfl
@[simp] theorem State.ackDone_progress : (s.ackDone).progress = s.progress := rfl
@[simp] theorem State.ackDone_faultAddr : (s.ackDone).faultAddr = s.faultAddr := rfl
@[simp] theorem State.ackDone_fsm : (s.ackDone).fsm = s.fsm := rfl
@[simp] theorem State.ackDone_scanP : (s.ackDone).scanP = s.scanP := rfl
@[simp] theorem State.ackDone_lat : (s.ackDone).lat = s.lat := rfl
@[simp] theorem State.ackDone_errbuf : (s.ackDone).errbuf = s.errbuf := rfl
@[simp] theorem State.ackDone_mem : (s.ackDone).mem = s.mem := rfl
@[simp] theorem State.ackDone_hostRace : (s.ackDone).hostRace = s.hostRace := rfl
@[simp] theorem State.ackDone_bufferNotMemory : (s.ackDone).bufferNotMemory = s.bufferNotMemory := rfl
@[simp] theorem State.ackDone_params : (s.ackDone).params = s.params := rfl
@[simp] theorem State.ackDone_hostCache : (s.ackDone).hostCache = s.hostCache := rfl
@[simp] theorem State.ackDone_inputs : (s.ackDone).inputs = s.inputs := rfl
@[simp] theorem State.ackDone_busAnswers : (s.ackDone).busAnswers = s.busAnswers := rfl
@[simp] theorem State.ackDone_draws : (s.ackDone).draws = s.draws := rfl
@[simp] theorem State.ackDone_resp : (s.ackDone).resp = s.resp := rfl
end ackDone

section ackErr
variable (s : State) 
@[simp] theorem State.ackErr_irqEn : (s.ackErr).irqEn = s.irqEn := rfl
@[simp] theorem State.ackErr_algo : (s.ackErr).algo = s.algo := rfl
@[simp] theorem State.ackErr_busy : (s.ackErr).busy = s.busy := rfl
@[simp] theorem State.ackErr_done : (s.ackErr).done = s.done := rfl
@[simp] theorem State.ackErr_err : (s.ackErr).err = false := rfl
@[simp] theorem State.ackErr_errcode : (s.ackErr).errcode = .none := rfl
@[simp] theorem State.ackErr_width : (s.ackErr).width = s.width := rfl
@[simp] theorem State.ackErr_height : (s.ackErr).height = s.height := rfl
@[simp] theorem State.ackErr_threshold : (s.ackErr).threshold = s.threshold := rfl
@[simp] theorem State.ackErr_bufBase : (s.ackErr).bufBase = s.bufBase := rfl
@[simp] theorem State.ackErr_bufLen : (s.ackErr).bufLen = s.bufLen := rfl
@[simp] theorem State.ackErr_progress : (s.ackErr).progress = s.progress := rfl
@[simp] theorem State.ackErr_faultAddr : (s.ackErr).faultAddr = s.faultAddr := rfl
@[simp] theorem State.ackErr_fsm : (s.ackErr).fsm = s.fsm := rfl
@[simp] theorem State.ackErr_scanP : (s.ackErr).scanP = s.scanP := rfl
@[simp] theorem State.ackErr_lat : (s.ackErr).lat = s.lat := rfl
@[simp] theorem State.ackErr_errbuf : (s.ackErr).errbuf = s.errbuf := rfl
@[simp] theorem State.ackErr_mem : (s.ackErr).mem = s.mem := rfl
@[simp] theorem State.ackErr_hostRace : (s.ackErr).hostRace = s.hostRace := rfl
@[simp] theorem State.ackErr_bufferNotMemory : (s.ackErr).bufferNotMemory = s.bufferNotMemory := rfl
@[simp] theorem State.ackErr_params : (s.ackErr).params = s.params := rfl
@[simp] theorem State.ackErr_hostCache : (s.ackErr).hostCache = s.hostCache := rfl
@[simp] theorem State.ackErr_inputs : (s.ackErr).inputs = s.inputs := rfl
@[simp] theorem State.ackErr_busAnswers : (s.ackErr).busAnswers = s.busAnswers := rfl
@[simp] theorem State.ackErr_draws : (s.ackErr).draws = s.draws := rfl
@[simp] theorem State.ackErr_resp : (s.ackErr).resp = s.resp := rfl
end ackErr

section setCtrl
variable (s : State) (i : Bool) (c : BitVec 4)
@[simp] theorem State.setCtrl_irqEn : (s.setCtrl i c).irqEn = i := rfl
@[simp] theorem State.setCtrl_algo : (s.setCtrl i c).algo = c := rfl
@[simp] theorem State.setCtrl_busy : (s.setCtrl i c).busy = s.busy := rfl
@[simp] theorem State.setCtrl_done : (s.setCtrl i c).done = s.done := rfl
@[simp] theorem State.setCtrl_err : (s.setCtrl i c).err = s.err := rfl
@[simp] theorem State.setCtrl_errcode : (s.setCtrl i c).errcode = s.errcode := rfl
@[simp] theorem State.setCtrl_width : (s.setCtrl i c).width = s.width := rfl
@[simp] theorem State.setCtrl_height : (s.setCtrl i c).height = s.height := rfl
@[simp] theorem State.setCtrl_threshold : (s.setCtrl i c).threshold = s.threshold := rfl
@[simp] theorem State.setCtrl_bufBase : (s.setCtrl i c).bufBase = s.bufBase := rfl
@[simp] theorem State.setCtrl_bufLen : (s.setCtrl i c).bufLen = s.bufLen := rfl
@[simp] theorem State.setCtrl_progress : (s.setCtrl i c).progress = s.progress := rfl
@[simp] theorem State.setCtrl_faultAddr : (s.setCtrl i c).faultAddr = s.faultAddr := rfl
@[simp] theorem State.setCtrl_fsm : (s.setCtrl i c).fsm = s.fsm := rfl
@[simp] theorem State.setCtrl_scanP : (s.setCtrl i c).scanP = s.scanP := rfl
@[simp] theorem State.setCtrl_lat : (s.setCtrl i c).lat = s.lat := rfl
@[simp] theorem State.setCtrl_errbuf : (s.setCtrl i c).errbuf = s.errbuf := rfl
@[simp] theorem State.setCtrl_mem : (s.setCtrl i c).mem = s.mem := rfl
@[simp] theorem State.setCtrl_hostRace : (s.setCtrl i c).hostRace = s.hostRace := rfl
@[simp] theorem State.setCtrl_bufferNotMemory : (s.setCtrl i c).bufferNotMemory = s.bufferNotMemory := rfl
@[simp] theorem State.setCtrl_params : (s.setCtrl i c).params = s.params := rfl
@[simp] theorem State.setCtrl_hostCache : (s.setCtrl i c).hostCache = s.hostCache := rfl
@[simp] theorem State.setCtrl_inputs : (s.setCtrl i c).inputs = s.inputs := rfl
@[simp] theorem State.setCtrl_busAnswers : (s.setCtrl i c).busAnswers = s.busAnswers := rfl
@[simp] theorem State.setCtrl_draws : (s.setCtrl i c).draws = s.draws := rfl
@[simp] theorem State.setCtrl_resp : (s.setCtrl i c).resp = s.resp := rfl
end setCtrl

section clearForIssue
variable (s : State) 
@[simp] theorem State.clearForIssue_irqEn : (s.clearForIssue).irqEn = s.irqEn := rfl
@[simp] theorem State.clearForIssue_algo : (s.clearForIssue).algo = s.algo := rfl
@[simp] theorem State.clearForIssue_busy : (s.clearForIssue).busy = s.busy := rfl
@[simp] theorem State.clearForIssue_done : (s.clearForIssue).done = false := rfl
@[simp] theorem State.clearForIssue_err : (s.clearForIssue).err = false := rfl
@[simp] theorem State.clearForIssue_errcode : (s.clearForIssue).errcode = .none := rfl
@[simp] theorem State.clearForIssue_width : (s.clearForIssue).width = s.width := rfl
@[simp] theorem State.clearForIssue_height : (s.clearForIssue).height = s.height := rfl
@[simp] theorem State.clearForIssue_threshold : (s.clearForIssue).threshold = s.threshold := rfl
@[simp] theorem State.clearForIssue_bufBase : (s.clearForIssue).bufBase = s.bufBase := rfl
@[simp] theorem State.clearForIssue_bufLen : (s.clearForIssue).bufLen = s.bufLen := rfl
@[simp] theorem State.clearForIssue_progress : (s.clearForIssue).progress = 0 := rfl
@[simp] theorem State.clearForIssue_faultAddr : (s.clearForIssue).faultAddr = 0 := rfl
@[simp] theorem State.clearForIssue_fsm : (s.clearForIssue).fsm = s.fsm := rfl
@[simp] theorem State.clearForIssue_scanP : (s.clearForIssue).scanP = s.scanP := rfl
@[simp] theorem State.clearForIssue_lat : (s.clearForIssue).lat = s.lat := rfl
@[simp] theorem State.clearForIssue_errbuf : (s.clearForIssue).errbuf = s.errbuf := rfl
@[simp] theorem State.clearForIssue_mem : (s.clearForIssue).mem = s.mem := rfl
@[simp] theorem State.clearForIssue_hostRace : (s.clearForIssue).hostRace = s.hostRace := rfl
@[simp] theorem State.clearForIssue_bufferNotMemory : (s.clearForIssue).bufferNotMemory = s.bufferNotMemory := rfl
@[simp] theorem State.clearForIssue_params : (s.clearForIssue).params = s.params := rfl
@[simp] theorem State.clearForIssue_hostCache : (s.clearForIssue).hostCache = s.hostCache := rfl
@[simp] theorem State.clearForIssue_inputs : (s.clearForIssue).inputs = s.inputs := rfl
@[simp] theorem State.clearForIssue_busAnswers : (s.clearForIssue).busAnswers = s.busAnswers := rfl
@[simp] theorem State.clearForIssue_draws : (s.clearForIssue).draws = s.draws := rfl
@[simp] theorem State.clearForIssue_resp : (s.clearForIssue).resp = s.resp := rfl
end clearForIssue

section beginIssue
variable (s : State) (i : Bool) (c : BitVec 4)
@[simp] theorem State.beginIssue_irqEn : (s.beginIssue i c).irqEn = i := rfl
@[simp] theorem State.beginIssue_algo : (s.beginIssue i c).algo = c := rfl
@[simp] theorem State.beginIssue_busy : (s.beginIssue i c).busy = s.busy := rfl
@[simp] theorem State.beginIssue_done : (s.beginIssue i c).done = false := rfl
@[simp] theorem State.beginIssue_err : (s.beginIssue i c).err = false := rfl
@[simp] theorem State.beginIssue_errcode : (s.beginIssue i c).errcode = .none := rfl
@[simp] theorem State.beginIssue_width : (s.beginIssue i c).width = s.width := rfl
@[simp] theorem State.beginIssue_height : (s.beginIssue i c).height = s.height := rfl
@[simp] theorem State.beginIssue_threshold : (s.beginIssue i c).threshold = s.threshold := rfl
@[simp] theorem State.beginIssue_bufBase : (s.beginIssue i c).bufBase = s.bufBase := rfl
@[simp] theorem State.beginIssue_bufLen : (s.beginIssue i c).bufLen = s.bufLen := rfl
@[simp] theorem State.beginIssue_progress : (s.beginIssue i c).progress = 0 := rfl
@[simp] theorem State.beginIssue_faultAddr : (s.beginIssue i c).faultAddr = 0 := rfl
@[simp] theorem State.beginIssue_fsm : (s.beginIssue i c).fsm = s.fsm := rfl
@[simp] theorem State.beginIssue_scanP : (s.beginIssue i c).scanP = s.scanP := rfl
@[simp] theorem State.beginIssue_lat : (s.beginIssue i c).lat = s.lat := rfl
@[simp] theorem State.beginIssue_errbuf : (s.beginIssue i c).errbuf = s.errbuf := rfl
@[simp] theorem State.beginIssue_mem : (s.beginIssue i c).mem = s.mem := rfl
@[simp] theorem State.beginIssue_hostRace : (s.beginIssue i c).hostRace = s.hostRace := rfl
@[simp] theorem State.beginIssue_bufferNotMemory : (s.beginIssue i c).bufferNotMemory = s.bufferNotMemory := rfl
@[simp] theorem State.beginIssue_params : (s.beginIssue i c).params = s.params := rfl
@[simp] theorem State.beginIssue_hostCache : (s.beginIssue i c).hostCache = s.hostCache := rfl
@[simp] theorem State.beginIssue_inputs : (s.beginIssue i c).inputs = s.inputs := rfl
@[simp] theorem State.beginIssue_busAnswers : (s.beginIssue i c).busAnswers = s.busAnswers := rfl
@[simp] theorem State.beginIssue_draws : (s.beginIssue i c).draws = s.draws := rfl
@[simp] theorem State.beginIssue_resp : (s.beginIssue i c).resp = s.resp := rfl
end beginIssue

section raiseError
variable (s : State) (c : ErrCode)
@[simp] theorem State.raiseError_irqEn : (s.raiseError c).irqEn = s.irqEn := rfl
@[simp] theorem State.raiseError_algo : (s.raiseError c).algo = s.algo := rfl
@[simp] theorem State.raiseError_busy : (s.raiseError c).busy = false := rfl
@[simp] theorem State.raiseError_done : (s.raiseError c).done = s.done := rfl
@[simp] theorem State.raiseError_err : (s.raiseError c).err = true := rfl
@[simp] theorem State.raiseError_errcode : (s.raiseError c).errcode = c := rfl
@[simp] theorem State.raiseError_width : (s.raiseError c).width = s.width := rfl
@[simp] theorem State.raiseError_height : (s.raiseError c).height = s.height := rfl
@[simp] theorem State.raiseError_threshold : (s.raiseError c).threshold = s.threshold := rfl
@[simp] theorem State.raiseError_bufBase : (s.raiseError c).bufBase = s.bufBase := rfl
@[simp] theorem State.raiseError_bufLen : (s.raiseError c).bufLen = s.bufLen := rfl
@[simp] theorem State.raiseError_progress : (s.raiseError c).progress = s.progress := rfl
@[simp] theorem State.raiseError_faultAddr : (s.raiseError c).faultAddr = s.faultAddr := rfl
@[simp] theorem State.raiseError_fsm : (s.raiseError c).fsm = .idle := rfl
@[simp] theorem State.raiseError_scanP : (s.raiseError c).scanP = s.scanP := rfl
@[simp] theorem State.raiseError_lat : (s.raiseError c).lat = s.lat := rfl
@[simp] theorem State.raiseError_errbuf : (s.raiseError c).errbuf = s.errbuf := rfl
@[simp] theorem State.raiseError_mem : (s.raiseError c).mem = s.mem := rfl
@[simp] theorem State.raiseError_hostRace : (s.raiseError c).hostRace = s.hostRace := rfl
@[simp] theorem State.raiseError_bufferNotMemory : (s.raiseError c).bufferNotMemory = s.bufferNotMemory := rfl
@[simp] theorem State.raiseError_params : (s.raiseError c).params = s.params := rfl
@[simp] theorem State.raiseError_hostCache : (s.raiseError c).hostCache = s.hostCache := rfl
@[simp] theorem State.raiseError_inputs : (s.raiseError c).inputs = s.inputs := rfl
@[simp] theorem State.raiseError_busAnswers : (s.raiseError c).busAnswers = s.busAnswers := rfl
@[simp] theorem State.raiseError_draws : (s.raiseError c).draws = s.draws := rfl
@[simp] theorem State.raiseError_resp : (s.raiseError c).resp = s.resp := rfl
end raiseError

section setMark
variable (s : State) (f : ModelFault)
@[simp] theorem State.setMark_irqEn : (s.setMark f).irqEn = s.irqEn := by cases f <;> rfl
@[simp] theorem State.setMark_algo : (s.setMark f).algo = s.algo := by cases f <;> rfl
@[simp] theorem State.setMark_busy : (s.setMark f).busy = s.busy := by cases f <;> rfl
@[simp] theorem State.setMark_done : (s.setMark f).done = s.done := by cases f <;> rfl
@[simp] theorem State.setMark_err : (s.setMark f).err = s.err := by cases f <;> rfl
@[simp] theorem State.setMark_errcode : (s.setMark f).errcode = s.errcode := by cases f <;> rfl
@[simp] theorem State.setMark_width : (s.setMark f).width = s.width := by cases f <;> rfl
@[simp] theorem State.setMark_height : (s.setMark f).height = s.height := by cases f <;> rfl
@[simp] theorem State.setMark_threshold : (s.setMark f).threshold = s.threshold := by cases f <;> rfl
@[simp] theorem State.setMark_bufBase : (s.setMark f).bufBase = s.bufBase := by cases f <;> rfl
@[simp] theorem State.setMark_bufLen : (s.setMark f).bufLen = s.bufLen := by cases f <;> rfl
@[simp] theorem State.setMark_progress : (s.setMark f).progress = s.progress := by cases f <;> rfl
@[simp] theorem State.setMark_faultAddr : (s.setMark f).faultAddr = s.faultAddr := by cases f <;> rfl
@[simp] theorem State.setMark_fsm : (s.setMark f).fsm = s.fsm := by cases f <;> rfl
@[simp] theorem State.setMark_scanP : (s.setMark f).scanP = s.scanP := by cases f <;> rfl
@[simp] theorem State.setMark_lat : (s.setMark f).lat = s.lat := by cases f <;> rfl
@[simp] theorem State.setMark_errbuf : (s.setMark f).errbuf = s.errbuf := by cases f <;> rfl
@[simp] theorem State.setMark_mem : (s.setMark f).mem = s.mem := by cases f <;> rfl
@[simp] theorem State.setMark_hostRace : (s.setMark f).hostRace = (s.hostRace || f == .hostRace) := by cases f <;> simp [State.setMark]
@[simp] theorem State.setMark_bufferNotMemory : (s.setMark f).bufferNotMemory = (s.bufferNotMemory || f == .bufferNotMemory) := by cases f <;> simp [State.setMark]
@[simp] theorem State.setMark_params : (s.setMark f).params = s.params := by cases f <;> rfl
@[simp] theorem State.setMark_hostCache : (s.setMark f).hostCache = s.hostCache := by cases f <;> rfl
@[simp] theorem State.setMark_inputs : (s.setMark f).inputs = s.inputs := by cases f <;> rfl
@[simp] theorem State.setMark_busAnswers : (s.setMark f).busAnswers = s.busAnswers := by cases f <;> rfl
@[simp] theorem State.setMark_draws : (s.setMark f).draws = s.draws := by cases f <;> rfl
@[simp] theorem State.setMark_resp : (s.setMark f).resp = s.resp := by cases f <;> rfl
end setMark

section havocBuffer
variable (s : State) 
@[simp] theorem State.havocBuffer_irqEn : (s.havocBuffer).irqEn = s.irqEn := rfl
@[simp] theorem State.havocBuffer_algo : (s.havocBuffer).algo = s.algo := rfl
@[simp] theorem State.havocBuffer_busy : (s.havocBuffer).busy = s.busy := rfl
@[simp] theorem State.havocBuffer_done : (s.havocBuffer).done = s.done := rfl
@[simp] theorem State.havocBuffer_err : (s.havocBuffer).err = s.err := rfl
@[simp] theorem State.havocBuffer_errcode : (s.havocBuffer).errcode = s.errcode := rfl
@[simp] theorem State.havocBuffer_width : (s.havocBuffer).width = s.width := rfl
@[simp] theorem State.havocBuffer_height : (s.havocBuffer).height = s.height := rfl
@[simp] theorem State.havocBuffer_threshold : (s.havocBuffer).threshold = s.threshold := rfl
@[simp] theorem State.havocBuffer_bufBase : (s.havocBuffer).bufBase = s.bufBase := rfl
@[simp] theorem State.havocBuffer_bufLen : (s.havocBuffer).bufLen = s.bufLen := rfl
@[simp] theorem State.havocBuffer_progress : (s.havocBuffer).progress = s.progress := rfl
@[simp] theorem State.havocBuffer_faultAddr : (s.havocBuffer).faultAddr = s.faultAddr := rfl
@[simp] theorem State.havocBuffer_fsm : (s.havocBuffer).fsm = s.fsm := rfl
@[simp] theorem State.havocBuffer_scanP : (s.havocBuffer).scanP = s.scanP := rfl
@[simp] theorem State.havocBuffer_lat : (s.havocBuffer).lat = s.lat := rfl
@[simp] theorem State.havocBuffer_errbuf : (s.havocBuffer).errbuf = s.errbuf := rfl
@[simp] theorem State.havocBuffer_mem : (s.havocBuffer).mem = s.mem.fill s.lat.base.toNat (Config.freeByte s.draws) (4 * s.lat.pixels) := rfl
@[simp] theorem State.havocBuffer_hostRace : (s.havocBuffer).hostRace = s.hostRace := rfl
@[simp] theorem State.havocBuffer_bufferNotMemory : (s.havocBuffer).bufferNotMemory = s.bufferNotMemory := rfl
@[simp] theorem State.havocBuffer_params : (s.havocBuffer).params = s.params := rfl
@[simp] theorem State.havocBuffer_hostCache : (s.havocBuffer).hostCache = s.hostCache.map (fun c => if s.lat.inBuffer c.addr then { c with byte := Config.freeByte s.draws c.addr } else c) := rfl
@[simp] theorem State.havocBuffer_inputs : (s.havocBuffer).inputs = s.inputs := rfl
@[simp] theorem State.havocBuffer_busAnswers : (s.havocBuffer).busAnswers = s.busAnswers := rfl
@[simp] theorem State.havocBuffer_draws : (s.havocBuffer).draws = s.draws + 1 := rfl
@[simp] theorem State.havocBuffer_resp : (s.havocBuffer).resp = s.resp := rfl
end havocBuffer

section recordFault
variable (s : State) (f : ModelFault)
@[simp] theorem State.recordFault_irqEn : (s.recordFault f).irqEn = s.irqEn := by simp [State.recordFault]
@[simp] theorem State.recordFault_algo : (s.recordFault f).algo = s.algo := by simp [State.recordFault]
@[simp] theorem State.recordFault_busy : (s.recordFault f).busy = s.busy := by simp [State.recordFault]
@[simp] theorem State.recordFault_done : (s.recordFault f).done = s.done := by simp [State.recordFault]
@[simp] theorem State.recordFault_err : (s.recordFault f).err = s.err := by simp [State.recordFault]
@[simp] theorem State.recordFault_errcode : (s.recordFault f).errcode = s.errcode := by simp [State.recordFault]
@[simp] theorem State.recordFault_width : (s.recordFault f).width = s.width := by simp [State.recordFault]
@[simp] theorem State.recordFault_height : (s.recordFault f).height = s.height := by simp [State.recordFault]
@[simp] theorem State.recordFault_threshold : (s.recordFault f).threshold = s.threshold := by simp [State.recordFault]
@[simp] theorem State.recordFault_bufBase : (s.recordFault f).bufBase = s.bufBase := by simp [State.recordFault]
@[simp] theorem State.recordFault_bufLen : (s.recordFault f).bufLen = s.bufLen := by simp [State.recordFault]
@[simp] theorem State.recordFault_progress : (s.recordFault f).progress = s.progress := by simp [State.recordFault]
@[simp] theorem State.recordFault_faultAddr : (s.recordFault f).faultAddr = s.faultAddr := by simp [State.recordFault]
@[simp] theorem State.recordFault_fsm : (s.recordFault f).fsm = s.fsm := by simp [State.recordFault]
@[simp] theorem State.recordFault_scanP : (s.recordFault f).scanP = s.scanP := by simp [State.recordFault]
@[simp] theorem State.recordFault_lat : (s.recordFault f).lat = s.lat := by simp [State.recordFault]
@[simp] theorem State.recordFault_errbuf : (s.recordFault f).errbuf = s.errbuf := by simp [State.recordFault]
@[simp] theorem State.recordFault_mem : (s.recordFault f).mem = s.mem.fill s.lat.base.toNat (Config.freeByte s.draws) (4 * s.lat.pixels) := by simp [State.recordFault]
@[simp] theorem State.recordFault_hostRace : (s.recordFault f).hostRace = (s.hostRace || f == .hostRace) := by simp [State.recordFault]
@[simp] theorem State.recordFault_bufferNotMemory : (s.recordFault f).bufferNotMemory = (s.bufferNotMemory || f == .bufferNotMemory) := by simp [State.recordFault]
@[simp] theorem State.recordFault_params : (s.recordFault f).params = s.params := by simp [State.recordFault]
@[simp] theorem State.recordFault_hostCache : (s.recordFault f).hostCache = s.hostCache.map (fun c => if s.lat.inBuffer c.addr then { c with byte := Config.freeByte s.draws c.addr } else c) := by simp [State.recordFault]
@[simp] theorem State.recordFault_inputs : (s.recordFault f).inputs = s.inputs := by simp [State.recordFault]
@[simp] theorem State.recordFault_busAnswers : (s.recordFault f).busAnswers = s.busAnswers := by simp [State.recordFault]
@[simp] theorem State.recordFault_draws : (s.recordFault f).draws = s.draws + 1 := by simp [State.recordFault]
@[simp] theorem State.recordFault_resp : (s.recordFault f).resp = s.resp := by simp [State.recordFault]
end recordFault

section dropAnswer
variable (s : State) 
@[simp] theorem State.dropAnswer_irqEn : (s.dropAnswer).irqEn = s.irqEn := by unfold State.dropAnswer; split <;> rfl
@[simp] theorem State.dropAnswer_algo : (s.dropAnswer).algo = s.algo := by unfold State.dropAnswer; split <;> rfl
@[simp] theorem State.dropAnswer_busy : (s.dropAnswer).busy = s.busy := by unfold State.dropAnswer; split <;> rfl
@[simp] theorem State.dropAnswer_done : (s.dropAnswer).done = s.done := by unfold State.dropAnswer; split <;> rfl
@[simp] theorem State.dropAnswer_err : (s.dropAnswer).err = s.err := by unfold State.dropAnswer; split <;> rfl
@[simp] theorem State.dropAnswer_errcode : (s.dropAnswer).errcode = s.errcode := by unfold State.dropAnswer; split <;> rfl
@[simp] theorem State.dropAnswer_width : (s.dropAnswer).width = s.width := by unfold State.dropAnswer; split <;> rfl
@[simp] theorem State.dropAnswer_height : (s.dropAnswer).height = s.height := by unfold State.dropAnswer; split <;> rfl
@[simp] theorem State.dropAnswer_threshold : (s.dropAnswer).threshold = s.threshold := by unfold State.dropAnswer; split <;> rfl
@[simp] theorem State.dropAnswer_bufBase : (s.dropAnswer).bufBase = s.bufBase := by unfold State.dropAnswer; split <;> rfl
@[simp] theorem State.dropAnswer_bufLen : (s.dropAnswer).bufLen = s.bufLen := by unfold State.dropAnswer; split <;> rfl
@[simp] theorem State.dropAnswer_progress : (s.dropAnswer).progress = s.progress := by unfold State.dropAnswer; split <;> rfl
@[simp] theorem State.dropAnswer_faultAddr : (s.dropAnswer).faultAddr = s.faultAddr := by unfold State.dropAnswer; split <;> rfl
@[simp] theorem State.dropAnswer_fsm : (s.dropAnswer).fsm = s.fsm := by unfold State.dropAnswer; split <;> rfl
@[simp] theorem State.dropAnswer_scanP : (s.dropAnswer).scanP = s.scanP := by unfold State.dropAnswer; split <;> rfl
@[simp] theorem State.dropAnswer_lat : (s.dropAnswer).lat = s.lat := by unfold State.dropAnswer; split <;> rfl
@[simp] theorem State.dropAnswer_errbuf : (s.dropAnswer).errbuf = s.errbuf := by unfold State.dropAnswer; split <;> rfl
@[simp] theorem State.dropAnswer_mem : (s.dropAnswer).mem = s.mem := by unfold State.dropAnswer; split <;> rfl
@[simp] theorem State.dropAnswer_hostRace : (s.dropAnswer).hostRace = s.hostRace := by unfold State.dropAnswer; split <;> rfl
@[simp] theorem State.dropAnswer_bufferNotMemory : (s.dropAnswer).bufferNotMemory = s.bufferNotMemory := by unfold State.dropAnswer; split <;> rfl
@[simp] theorem State.dropAnswer_params : (s.dropAnswer).params = s.params := by unfold State.dropAnswer; split <;> rfl
@[simp] theorem State.dropAnswer_hostCache : (s.dropAnswer).hostCache = s.hostCache := by unfold State.dropAnswer; split <;> rfl
@[simp] theorem State.dropAnswer_inputs : (s.dropAnswer).inputs = s.inputs := by unfold State.dropAnswer; split <;> rfl
@[simp] theorem State.dropAnswer_busAnswers : (s.dropAnswer).busAnswers = s.busAnswers.tail := by unfold State.dropAnswer; split <;> simp_all
@[simp] theorem State.dropAnswer_draws : (s.dropAnswer).draws = if s.busAnswers = [] then s.draws + 1 else s.draws := by unfold State.dropAnswer; split <;> simp_all
@[simp] theorem State.dropAnswer_resp : (s.dropAnswer).resp = s.resp := by unfold State.dropAnswer; split <;> rfl
end dropAnswer

section useStoredBytes
variable (s : State) 
@[simp] theorem State.useStoredBytes_irqEn : (s.useStoredBytes).irqEn = s.irqEn := by unfold State.useStoredBytes; split <;> rfl
@[simp] theorem State.useStoredBytes_algo : (s.useStoredBytes).algo = s.algo := by unfold State.useStoredBytes; split <;> rfl
@[simp] theorem State.useStoredBytes_busy : (s.useStoredBytes).busy = s.busy := by unfold State.useStoredBytes; split <;> rfl
@[simp] theorem State.useStoredBytes_done : (s.useStoredBytes).done = s.done := by unfold State.useStoredBytes; split <;> rfl
@[simp] theorem State.useStoredBytes_err : (s.useStoredBytes).err = s.err := by unfold State.useStoredBytes; split <;> rfl
@[simp] theorem State.useStoredBytes_errcode : (s.useStoredBytes).errcode = s.errcode := by unfold State.useStoredBytes; split <;> rfl
@[simp] theorem State.useStoredBytes_width : (s.useStoredBytes).width = s.width := by unfold State.useStoredBytes; split <;> rfl
@[simp] theorem State.useStoredBytes_height : (s.useStoredBytes).height = s.height := by unfold State.useStoredBytes; split <;> rfl
@[simp] theorem State.useStoredBytes_threshold : (s.useStoredBytes).threshold = s.threshold := by unfold State.useStoredBytes; split <;> rfl
@[simp] theorem State.useStoredBytes_bufBase : (s.useStoredBytes).bufBase = s.bufBase := by unfold State.useStoredBytes; split <;> rfl
@[simp] theorem State.useStoredBytes_bufLen : (s.useStoredBytes).bufLen = s.bufLen := by unfold State.useStoredBytes; split <;> rfl
@[simp] theorem State.useStoredBytes_progress : (s.useStoredBytes).progress = s.progress := by unfold State.useStoredBytes; split <;> rfl
@[simp] theorem State.useStoredBytes_faultAddr : (s.useStoredBytes).faultAddr = s.faultAddr := by unfold State.useStoredBytes; split <;> rfl
@[simp] theorem State.useStoredBytes_fsm : (s.useStoredBytes).fsm = s.fsm := by unfold State.useStoredBytes; split <;> rfl
@[simp] theorem State.useStoredBytes_scanP : (s.useStoredBytes).scanP = s.scanP := by unfold State.useStoredBytes; split <;> rfl
@[simp] theorem State.useStoredBytes_lat : (s.useStoredBytes).lat = s.lat := by unfold State.useStoredBytes; split <;> rfl
@[simp] theorem State.useStoredBytes_errbuf : (s.useStoredBytes).errbuf = s.errbuf := by unfold State.useStoredBytes; split <;> rfl
@[simp] theorem State.useStoredBytes_mem : (s.useStoredBytes).mem = s.mem := by unfold State.useStoredBytes; split <;> rfl
@[simp] theorem State.useStoredBytes_hostRace : (s.useStoredBytes).hostRace = s.hostRace := by unfold State.useStoredBytes; split <;> rfl
@[simp] theorem State.useStoredBytes_bufferNotMemory : (s.useStoredBytes).bufferNotMemory = s.bufferNotMemory := by unfold State.useStoredBytes; split <;> rfl
@[simp] theorem State.useStoredBytes_params : (s.useStoredBytes).params = s.params := by unfold State.useStoredBytes; split <;> rfl
@[simp] theorem State.useStoredBytes_hostCache : (s.useStoredBytes).hostCache = s.hostCache := by unfold State.useStoredBytes; split <;> rfl
@[simp] theorem State.useStoredBytes_inputs : (s.useStoredBytes).inputs = s.inputs := by unfold State.useStoredBytes; split <;> rfl
@[simp] theorem State.useStoredBytes_busAnswers : (s.useStoredBytes).busAnswers = s.busAnswers := by unfold State.useStoredBytes; split <;> rfl
@[simp] theorem State.useStoredBytes_draws : (s.useStoredBytes).draws = if s.marked then s.draws + 1 else s.draws := by unfold State.useStoredBytes; split <;> simp_all
@[simp] theorem State.useStoredBytes_resp : (s.useStoredBytes).resp = s.resp := by unfold State.useStoredBytes; split <;> rfl
end useStoredBytes

section writePixel
variable (s : State) (a : Nat) (px : Byte × Byte × Byte) (mr mg mb : Bool)
@[simp] theorem State.writePixel_irqEn : (s.writePixel a px mr mg mb).irqEn = s.irqEn := rfl
@[simp] theorem State.writePixel_algo : (s.writePixel a px mr mg mb).algo = s.algo := rfl
@[simp] theorem State.writePixel_busy : (s.writePixel a px mr mg mb).busy = s.busy := rfl
@[simp] theorem State.writePixel_done : (s.writePixel a px mr mg mb).done = s.done := rfl
@[simp] theorem State.writePixel_err : (s.writePixel a px mr mg mb).err = s.err := rfl
@[simp] theorem State.writePixel_errcode : (s.writePixel a px mr mg mb).errcode = s.errcode := rfl
@[simp] theorem State.writePixel_width : (s.writePixel a px mr mg mb).width = s.width := rfl
@[simp] theorem State.writePixel_height : (s.writePixel a px mr mg mb).height = s.height := rfl
@[simp] theorem State.writePixel_threshold : (s.writePixel a px mr mg mb).threshold = s.threshold := rfl
@[simp] theorem State.writePixel_bufBase : (s.writePixel a px mr mg mb).bufBase = s.bufBase := rfl
@[simp] theorem State.writePixel_bufLen : (s.writePixel a px mr mg mb).bufLen = s.bufLen := rfl
@[simp] theorem State.writePixel_progress : (s.writePixel a px mr mg mb).progress = s.progress := rfl
@[simp] theorem State.writePixel_faultAddr : (s.writePixel a px mr mg mb).faultAddr = s.faultAddr := rfl
@[simp] theorem State.writePixel_fsm : (s.writePixel a px mr mg mb).fsm = s.fsm := rfl
@[simp] theorem State.writePixel_scanP : (s.writePixel a px mr mg mb).scanP = s.scanP := rfl
@[simp] theorem State.writePixel_lat : (s.writePixel a px mr mg mb).lat = s.lat := rfl
@[simp] theorem State.writePixel_errbuf : (s.writePixel a px mr mg mb).errbuf = s.errbuf := rfl
@[simp] theorem State.writePixel_mem : (s.writePixel a px mr mg mb).mem = s.mem.writeRgb a px.1 px.2.1 px.2.2 mr mg mb := rfl
@[simp] theorem State.writePixel_hostRace : (s.writePixel a px mr mg mb).hostRace = s.hostRace := rfl
@[simp] theorem State.writePixel_bufferNotMemory : (s.writePixel a px mr mg mb).bufferNotMemory = s.bufferNotMemory := rfl
@[simp] theorem State.writePixel_params : (s.writePixel a px mr mg mb).params = s.params := rfl
@[simp] theorem State.writePixel_hostCache : (s.writePixel a px mr mg mb).hostCache = s.hostCache := rfl
@[simp] theorem State.writePixel_inputs : (s.writePixel a px mr mg mb).inputs = s.inputs := rfl
@[simp] theorem State.writePixel_busAnswers : (s.writePixel a px mr mg mb).busAnswers = s.busAnswers := rfl
@[simp] theorem State.writePixel_draws : (s.writePixel a px mr mg mb).draws = s.draws := rfl
@[simp] theorem State.writePixel_resp : (s.writePixel a px mr mg mb).resp = s.resp := rfl
end writePixel

section startRun
variable (s : State) (a : Strategy)
@[simp] theorem State.startRun_irqEn : (s.startRun a).irqEn = s.irqEn := rfl
@[simp] theorem State.startRun_algo : (s.startRun a).algo = s.algo := rfl
@[simp] theorem State.startRun_busy : (s.startRun a).busy = true := rfl
@[simp] theorem State.startRun_done : (s.startRun a).done = s.done := rfl
@[simp] theorem State.startRun_err : (s.startRun a).err = s.err := rfl
@[simp] theorem State.startRun_errcode : (s.startRun a).errcode = s.errcode := rfl
@[simp] theorem State.startRun_width : (s.startRun a).width = s.width := rfl
@[simp] theorem State.startRun_height : (s.startRun a).height = s.height := rfl
@[simp] theorem State.startRun_threshold : (s.startRun a).threshold = s.threshold := rfl
@[simp] theorem State.startRun_bufBase : (s.startRun a).bufBase = s.bufBase := rfl
@[simp] theorem State.startRun_bufLen : (s.startRun a).bufLen = s.bufLen := rfl
@[simp] theorem State.startRun_progress : (s.startRun a).progress = s.progress := rfl
@[simp] theorem State.startRun_faultAddr : (s.startRun a).faultAddr = s.faultAddr := rfl
@[simp] theorem State.startRun_fsm : (s.startRun a).fsm = .run := rfl
@[simp] theorem State.startRun_scanP : (s.startRun a).scanP = 0 := rfl
@[simp] theorem State.startRun_lat : (s.startRun a).lat = s.latched a := rfl
@[simp] theorem State.startRun_errbuf : (s.startRun a).errbuf = if isDiffusion a then List.replicate (s.argW * s.argH) 0 else s.errbuf := rfl
@[simp] theorem State.startRun_mem : (s.startRun a).mem = s.mem := rfl
@[simp] theorem State.startRun_hostRace : (s.startRun a).hostRace = s.hostRace := rfl
@[simp] theorem State.startRun_bufferNotMemory : (s.startRun a).bufferNotMemory = s.bufferNotMemory := rfl
@[simp] theorem State.startRun_params : (s.startRun a).params = s.params := rfl
@[simp] theorem State.startRun_hostCache : (s.startRun a).hostCache = s.hostCache := rfl
@[simp] theorem State.startRun_inputs : (s.startRun a).inputs = s.inputs := rfl
@[simp] theorem State.startRun_busAnswers : (s.startRun a).busAnswers = s.busAnswers := rfl
@[simp] theorem State.startRun_draws : (s.startRun a).draws = s.draws := rfl
@[simp] theorem State.startRun_resp : (s.startRun a).resp = s.resp := rfl
end startRun

section diffuse
variable (s : State) (p : Nat) (e : F64)
@[simp] theorem State.diffuse_irqEn : (s.diffuse p e).irqEn = s.irqEn := rfl
@[simp] theorem State.diffuse_algo : (s.diffuse p e).algo = s.algo := rfl
@[simp] theorem State.diffuse_busy : (s.diffuse p e).busy = s.busy := rfl
@[simp] theorem State.diffuse_done : (s.diffuse p e).done = s.done := rfl
@[simp] theorem State.diffuse_err : (s.diffuse p e).err = s.err := rfl
@[simp] theorem State.diffuse_errcode : (s.diffuse p e).errcode = s.errcode := rfl
@[simp] theorem State.diffuse_width : (s.diffuse p e).width = s.width := rfl
@[simp] theorem State.diffuse_height : (s.diffuse p e).height = s.height := rfl
@[simp] theorem State.diffuse_threshold : (s.diffuse p e).threshold = s.threshold := rfl
@[simp] theorem State.diffuse_bufBase : (s.diffuse p e).bufBase = s.bufBase := rfl
@[simp] theorem State.diffuse_bufLen : (s.diffuse p e).bufLen = s.bufLen := rfl
@[simp] theorem State.diffuse_progress : (s.diffuse p e).progress = s.progress := rfl
@[simp] theorem State.diffuse_faultAddr : (s.diffuse p e).faultAddr = s.faultAddr := rfl
@[simp] theorem State.diffuse_fsm : (s.diffuse p e).fsm = s.fsm := rfl
@[simp] theorem State.diffuse_scanP : (s.diffuse p e).scanP = s.scanP := rfl
@[simp] theorem State.diffuse_lat : (s.diffuse p e).lat = s.lat := rfl
@[simp] theorem State.diffuse_errbuf : (s.diffuse p e).errbuf = distribute s.params.productForm s.lat.wN s.lat.hN (s.lat.xOf p) (s.lat.yOf p) e (kernelOf s.lat.strategy) s.errbuf := rfl
@[simp] theorem State.diffuse_mem : (s.diffuse p e).mem = s.mem := rfl
@[simp] theorem State.diffuse_hostRace : (s.diffuse p e).hostRace = s.hostRace := rfl
@[simp] theorem State.diffuse_bufferNotMemory : (s.diffuse p e).bufferNotMemory = s.bufferNotMemory := rfl
@[simp] theorem State.diffuse_params : (s.diffuse p e).params = s.params := rfl
@[simp] theorem State.diffuse_hostCache : (s.diffuse p e).hostCache = s.hostCache := rfl
@[simp] theorem State.diffuse_inputs : (s.diffuse p e).inputs = s.inputs := rfl
@[simp] theorem State.diffuse_busAnswers : (s.diffuse p e).busAnswers = s.busAnswers := rfl
@[simp] theorem State.diffuse_draws : (s.diffuse p e).draws = s.draws := rfl
@[simp] theorem State.diffuse_resp : (s.diffuse p e).resp = s.resp := rfl
end diffuse

section releaseErrbuf
variable (s : State) 
@[simp] theorem State.releaseErrbuf_irqEn : (s.releaseErrbuf).irqEn = s.irqEn := by unfold State.releaseErrbuf; split <;> rfl
@[simp] theorem State.releaseErrbuf_algo : (s.releaseErrbuf).algo = s.algo := by unfold State.releaseErrbuf; split <;> rfl
@[simp] theorem State.releaseErrbuf_busy : (s.releaseErrbuf).busy = s.busy := by unfold State.releaseErrbuf; split <;> rfl
@[simp] theorem State.releaseErrbuf_done : (s.releaseErrbuf).done = s.done := by unfold State.releaseErrbuf; split <;> rfl
@[simp] theorem State.releaseErrbuf_err : (s.releaseErrbuf).err = s.err := by unfold State.releaseErrbuf; split <;> rfl
@[simp] theorem State.releaseErrbuf_errcode : (s.releaseErrbuf).errcode = s.errcode := by unfold State.releaseErrbuf; split <;> rfl
@[simp] theorem State.releaseErrbuf_width : (s.releaseErrbuf).width = s.width := by unfold State.releaseErrbuf; split <;> rfl
@[simp] theorem State.releaseErrbuf_height : (s.releaseErrbuf).height = s.height := by unfold State.releaseErrbuf; split <;> rfl
@[simp] theorem State.releaseErrbuf_threshold : (s.releaseErrbuf).threshold = s.threshold := by unfold State.releaseErrbuf; split <;> rfl
@[simp] theorem State.releaseErrbuf_bufBase : (s.releaseErrbuf).bufBase = s.bufBase := by unfold State.releaseErrbuf; split <;> rfl
@[simp] theorem State.releaseErrbuf_bufLen : (s.releaseErrbuf).bufLen = s.bufLen := by unfold State.releaseErrbuf; split <;> rfl
@[simp] theorem State.releaseErrbuf_progress : (s.releaseErrbuf).progress = s.progress := by unfold State.releaseErrbuf; split <;> rfl
@[simp] theorem State.releaseErrbuf_faultAddr : (s.releaseErrbuf).faultAddr = s.faultAddr := by unfold State.releaseErrbuf; split <;> rfl
@[simp] theorem State.releaseErrbuf_fsm : (s.releaseErrbuf).fsm = s.fsm := by unfold State.releaseErrbuf; split <;> rfl
@[simp] theorem State.releaseErrbuf_scanP : (s.releaseErrbuf).scanP = s.scanP := by unfold State.releaseErrbuf; split <;> rfl
@[simp] theorem State.releaseErrbuf_lat : (s.releaseErrbuf).lat = s.lat := by unfold State.releaseErrbuf; split <;> rfl
@[simp] theorem State.releaseErrbuf_errbuf : (s.releaseErrbuf).errbuf = if isDiffusion s.lat.strategy then Config.freeErrbuf s.draws else s.errbuf := by unfold State.releaseErrbuf; split <;> simp_all
@[simp] theorem State.releaseErrbuf_mem : (s.releaseErrbuf).mem = s.mem := by unfold State.releaseErrbuf; split <;> rfl
@[simp] theorem State.releaseErrbuf_hostRace : (s.releaseErrbuf).hostRace = s.hostRace := by unfold State.releaseErrbuf; split <;> rfl
@[simp] theorem State.releaseErrbuf_bufferNotMemory : (s.releaseErrbuf).bufferNotMemory = s.bufferNotMemory := by unfold State.releaseErrbuf; split <;> rfl
@[simp] theorem State.releaseErrbuf_params : (s.releaseErrbuf).params = s.params := by unfold State.releaseErrbuf; split <;> rfl
@[simp] theorem State.releaseErrbuf_hostCache : (s.releaseErrbuf).hostCache = s.hostCache := by unfold State.releaseErrbuf; split <;> rfl
@[simp] theorem State.releaseErrbuf_inputs : (s.releaseErrbuf).inputs = s.inputs := by unfold State.releaseErrbuf; split <;> rfl
@[simp] theorem State.releaseErrbuf_busAnswers : (s.releaseErrbuf).busAnswers = s.busAnswers := by unfold State.releaseErrbuf; split <;> rfl
@[simp] theorem State.releaseErrbuf_draws : (s.releaseErrbuf).draws = if isDiffusion s.lat.strategy then s.draws + 1 else s.draws := by unfold State.releaseErrbuf; split <;> simp_all
@[simp] theorem State.releaseErrbuf_resp : (s.releaseErrbuf).resp = s.resp := by unfold State.releaseErrbuf; split <;> rfl
end releaseErrbuf

section complete
variable (s : State) 
@[simp] theorem State.complete_irqEn : (s.complete).irqEn = s.irqEn := by unfold State.complete; simp
@[simp] theorem State.complete_algo : (s.complete).algo = s.algo := by unfold State.complete; simp
@[simp] theorem State.complete_busy : (s.complete).busy = false := rfl
@[simp] theorem State.complete_done : (s.complete).done = true := rfl
@[simp] theorem State.complete_err : (s.complete).err = s.err := by unfold State.complete; simp
@[simp] theorem State.complete_errcode : (s.complete).errcode = s.errcode := by unfold State.complete; simp
@[simp] theorem State.complete_width : (s.complete).width = s.width := by unfold State.complete; simp
@[simp] theorem State.complete_height : (s.complete).height = s.height := by unfold State.complete; simp
@[simp] theorem State.complete_threshold : (s.complete).threshold = s.threshold := by unfold State.complete; simp
@[simp] theorem State.complete_bufBase : (s.complete).bufBase = s.bufBase := by unfold State.complete; simp
@[simp] theorem State.complete_bufLen : (s.complete).bufLen = s.bufLen := by unfold State.complete; simp
@[simp] theorem State.complete_progress : (s.complete).progress = s.progress := by unfold State.complete; simp
@[simp] theorem State.complete_faultAddr : (s.complete).faultAddr = s.faultAddr := by unfold State.complete; simp
@[simp] theorem State.complete_fsm : (s.complete).fsm = .idle := rfl
@[simp] theorem State.complete_scanP : (s.complete).scanP = s.scanP := by unfold State.complete; simp
@[simp] theorem State.complete_lat : (s.complete).lat = s.lat := by unfold State.complete; simp
@[simp] theorem State.complete_errbuf : (s.complete).errbuf = s.releaseErrbuf.errbuf := rfl
@[simp] theorem State.complete_mem : (s.complete).mem = s.mem := by unfold State.complete; simp
@[simp] theorem State.complete_hostRace : (s.complete).hostRace = s.hostRace := by unfold State.complete; simp
@[simp] theorem State.complete_bufferNotMemory : (s.complete).bufferNotMemory = s.bufferNotMemory := by unfold State.complete; simp
@[simp] theorem State.complete_params : (s.complete).params = s.params := by unfold State.complete; simp
@[simp] theorem State.complete_hostCache : (s.complete).hostCache = s.hostCache := by unfold State.complete; simp
@[simp] theorem State.complete_inputs : (s.complete).inputs = s.inputs := by unfold State.complete; simp
@[simp] theorem State.complete_busAnswers : (s.complete).busAnswers = s.busAnswers := by unfold State.complete; simp
@[simp] theorem State.complete_draws : (s.complete).draws = s.releaseErrbuf.draws := rfl
@[simp] theorem State.complete_resp : (s.complete).resp = s.resp := by unfold State.complete; simp
end complete

section abort
variable (s : State) (a : Nat)
@[simp] theorem State.abort_irqEn : (s.abort a).irqEn = s.irqEn := by unfold State.abort; simp
@[simp] theorem State.abort_algo : (s.abort a).algo = s.algo := by unfold State.abort; simp
@[simp] theorem State.abort_busy : (s.abort a).busy = false := rfl
@[simp] theorem State.abort_done : (s.abort a).done = s.done := by unfold State.abort; simp
@[simp] theorem State.abort_err : (s.abort a).err = true := rfl
@[simp] theorem State.abort_errcode : (s.abort a).errcode = .busErr := rfl
@[simp] theorem State.abort_width : (s.abort a).width = s.width := by unfold State.abort; simp
@[simp] theorem State.abort_height : (s.abort a).height = s.height := by unfold State.abort; simp
@[simp] theorem State.abort_threshold : (s.abort a).threshold = s.threshold := by unfold State.abort; simp
@[simp] theorem State.abort_bufBase : (s.abort a).bufBase = s.bufBase := by unfold State.abort; simp
@[simp] theorem State.abort_bufLen : (s.abort a).bufLen = s.bufLen := by unfold State.abort; simp
@[simp] theorem State.abort_progress : (s.abort a).progress = s.progress := by unfold State.abort; simp
@[simp] theorem State.abort_faultAddr : (s.abort a).faultAddr = BitVec.ofNat 32 a := rfl
@[simp] theorem State.abort_fsm : (s.abort a).fsm = .idle := rfl
@[simp] theorem State.abort_scanP : (s.abort a).scanP = s.scanP := by unfold State.abort; simp
@[simp] theorem State.abort_lat : (s.abort a).lat = s.lat := by unfold State.abort; simp
@[simp] theorem State.abort_errbuf : (s.abort a).errbuf = s.releaseErrbuf.errbuf := rfl
@[simp] theorem State.abort_mem : (s.abort a).mem = s.mem := by unfold State.abort; simp
@[simp] theorem State.abort_hostRace : (s.abort a).hostRace = s.hostRace := by unfold State.abort; simp
@[simp] theorem State.abort_bufferNotMemory : (s.abort a).bufferNotMemory = s.bufferNotMemory := by unfold State.abort; simp
@[simp] theorem State.abort_params : (s.abort a).params = s.params := by unfold State.abort; simp
@[simp] theorem State.abort_hostCache : (s.abort a).hostCache = s.hostCache := by unfold State.abort; simp
@[simp] theorem State.abort_inputs : (s.abort a).inputs = s.inputs := by unfold State.abort; simp
@[simp] theorem State.abort_busAnswers : (s.abort a).busAnswers = s.busAnswers := by unfold State.abort; simp
@[simp] theorem State.abort_draws : (s.abort a).draws = s.releaseErrbuf.draws := rfl
@[simp] theorem State.abort_resp : (s.abort a).resp = s.resp := by unfold State.abort; simp
end abort

section advance
variable (s : State) (p : Nat)
@[simp] theorem State.advance_irqEn : (s.advance p).irqEn = s.irqEn := rfl
@[simp] theorem State.advance_algo : (s.advance p).algo = s.algo := rfl
@[simp] theorem State.advance_busy : (s.advance p).busy = s.busy := rfl
@[simp] theorem State.advance_done : (s.advance p).done = s.done := rfl
@[simp] theorem State.advance_err : (s.advance p).err = s.err := rfl
@[simp] theorem State.advance_errcode : (s.advance p).errcode = s.errcode := rfl
@[simp] theorem State.advance_width : (s.advance p).width = s.width := rfl
@[simp] theorem State.advance_height : (s.advance p).height = s.height := rfl
@[simp] theorem State.advance_threshold : (s.advance p).threshold = s.threshold := rfl
@[simp] theorem State.advance_bufBase : (s.advance p).bufBase = s.bufBase := rfl
@[simp] theorem State.advance_bufLen : (s.advance p).bufLen = s.bufLen := rfl
@[simp] theorem State.advance_progress : (s.advance p).progress = BitVec.ofNat 32 (p + 1) := rfl
@[simp] theorem State.advance_faultAddr : (s.advance p).faultAddr = s.faultAddr := rfl
@[simp] theorem State.advance_fsm : (s.advance p).fsm = s.fsm := rfl
@[simp] theorem State.advance_scanP : (s.advance p).scanP = p + 1 := rfl
@[simp] theorem State.advance_lat : (s.advance p).lat = s.lat := rfl
@[simp] theorem State.advance_errbuf : (s.advance p).errbuf = s.errbuf := rfl
@[simp] theorem State.advance_mem : (s.advance p).mem = s.mem := rfl
@[simp] theorem State.advance_hostRace : (s.advance p).hostRace = s.hostRace := rfl
@[simp] theorem State.advance_bufferNotMemory : (s.advance p).bufferNotMemory = s.bufferNotMemory := rfl
@[simp] theorem State.advance_params : (s.advance p).params = s.params := rfl
@[simp] theorem State.advance_hostCache : (s.advance p).hostCache = s.hostCache := rfl
@[simp] theorem State.advance_inputs : (s.advance p).inputs = s.inputs := rfl
@[simp] theorem State.advance_busAnswers : (s.advance p).busAnswers = s.busAnswers := rfl
@[simp] theorem State.advance_draws : (s.advance p).draws = s.draws := rfl
@[simp] theorem State.advance_resp : (s.advance p).resp = s.resp := rfl
end advance

section withFetchWord
variable (s : State) (n w : Nat)
@[simp] theorem State.withFetchWord_irqEn : (s.withFetchWord n w).irqEn = s.irqEn := rfl
@[simp] theorem State.withFetchWord_algo : (s.withFetchWord n w).algo = s.algo := rfl
@[simp] theorem State.withFetchWord_busy : (s.withFetchWord n w).busy = s.busy := rfl
@[simp] theorem State.withFetchWord_done : (s.withFetchWord n w).done = s.done := rfl
@[simp] theorem State.withFetchWord_err : (s.withFetchWord n w).err = s.err := rfl
@[simp] theorem State.withFetchWord_errcode : (s.withFetchWord n w).errcode = s.errcode := rfl
@[simp] theorem State.withFetchWord_width : (s.withFetchWord n w).width = s.width := rfl
@[simp] theorem State.withFetchWord_height : (s.withFetchWord n w).height = s.height := rfl
@[simp] theorem State.withFetchWord_threshold : (s.withFetchWord n w).threshold = s.threshold := rfl
@[simp] theorem State.withFetchWord_bufBase : (s.withFetchWord n w).bufBase = s.bufBase := rfl
@[simp] theorem State.withFetchWord_bufLen : (s.withFetchWord n w).bufLen = s.bufLen := rfl
@[simp] theorem State.withFetchWord_progress : (s.withFetchWord n w).progress = s.progress := rfl
@[simp] theorem State.withFetchWord_faultAddr : (s.withFetchWord n w).faultAddr = s.faultAddr := rfl
@[simp] theorem State.withFetchWord_fsm : (s.withFetchWord n w).fsm = s.fsm := rfl
@[simp] theorem State.withFetchWord_scanP : (s.withFetchWord n w).scanP = s.scanP := rfl
@[simp] theorem State.withFetchWord_lat : (s.withFetchWord n w).lat = s.lat := rfl
@[simp] theorem State.withFetchWord_errbuf : (s.withFetchWord n w).errbuf = s.errbuf := rfl
@[simp] theorem State.withFetchWord_mem : (s.withFetchWord n w).mem = s.mem := rfl
@[simp] theorem State.withFetchWord_hostRace : (s.withFetchWord n w).hostRace = s.hostRace := rfl
@[simp] theorem State.withFetchWord_bufferNotMemory : (s.withFetchWord n w).bufferNotMemory = s.bufferNotMemory := rfl
@[simp] theorem State.withFetchWord_params : (s.withFetchWord n w).params = s.params := rfl
@[simp] theorem State.withFetchWord_hostCache : (s.withFetchWord n w).hostCache = s.hostCache := rfl
@[simp] theorem State.withFetchWord_inputs : (s.withFetchWord n w).inputs = ctrlEvent (tableWord n w) :: s.inputs := rfl
@[simp] theorem State.withFetchWord_busAnswers : (s.withFetchWord n w).busAnswers = s.busAnswers := rfl
@[simp] theorem State.withFetchWord_draws : (s.withFetchWord n w).draws = s.draws := rfl
@[simp] theorem State.withFetchWord_resp : (s.withFetchWord n w).resp = s.resp := rfl
end withFetchWord

section resetInput
variable (s : State) 
@[simp] theorem State.resetInput_irqEn : (s.resetInput).irqEn = false := rfl
@[simp] theorem State.resetInput_algo : (s.resetInput).algo = 0 := rfl
@[simp] theorem State.resetInput_busy : (s.resetInput).busy = false := rfl
@[simp] theorem State.resetInput_done : (s.resetInput).done = false := rfl
@[simp] theorem State.resetInput_err : (s.resetInput).err = false := rfl
@[simp] theorem State.resetInput_errcode : (s.resetInput).errcode = .none := rfl
@[simp] theorem State.resetInput_width : (s.resetInput).width = 0 := rfl
@[simp] theorem State.resetInput_height : (s.resetInput).height = 0 := rfl
@[simp] theorem State.resetInput_threshold : (s.resetInput).threshold = 0 := rfl
@[simp] theorem State.resetInput_bufBase : (s.resetInput).bufBase = 0 := rfl
@[simp] theorem State.resetInput_bufLen : (s.resetInput).bufLen = 0 := rfl
@[simp] theorem State.resetInput_progress : (s.resetInput).progress = 0 := rfl
@[simp] theorem State.resetInput_faultAddr : (s.resetInput).faultAddr = 0 := rfl
@[simp] theorem State.resetInput_fsm : (s.resetInput).fsm = .idle := rfl
@[simp] theorem State.resetInput_scanP : (s.resetInput).scanP = 0 := rfl
@[simp] theorem State.resetInput_lat : (s.resetInput).lat = .reset := rfl
@[simp] theorem State.resetInput_errbuf : (s.resetInput).errbuf = [] := rfl
@[simp] theorem State.resetInput_mem : (s.resetInput).mem = s.mem := rfl
@[simp] theorem State.resetInput_hostRace : (s.resetInput).hostRace = s.hostRace := rfl
@[simp] theorem State.resetInput_bufferNotMemory : (s.resetInput).bufferNotMemory = s.bufferNotMemory := rfl
@[simp] theorem State.resetInput_params : (s.resetInput).params = s.params := rfl
@[simp] theorem State.resetInput_hostCache : (s.resetInput).hostCache = s.hostCache := rfl
@[simp] theorem State.resetInput_inputs : (s.resetInput).inputs = s.inputs := rfl
@[simp] theorem State.resetInput_busAnswers : (s.resetInput).busAnswers = s.busAnswers := rfl
@[simp] theorem State.resetInput_draws : (s.resetInput).draws = s.draws := rfl
@[simp] theorem State.resetInput_resp : (s.resetInput).resp = .idle := rfl
end resetInput

end Sys2Proof.Machine
end

