-- ==== Sys2Proof/Laws/Ops.lean ====
section
/-! SUPPORT. What each shared operation can do, said once: the checks of an issue, acceptance, the issue itself, the memory port. -/

namespace Sys2Proof.Machine

open Sys2Proof

section args
variable (s : State) (r : Response) (i : Bool) (c : BitVec 4)

/-- The operand checks read only registers and parameters: an issue's own changes do not move them. -/
@[simp] theorem argError_beginIssue : (s.beginIssue i c).argError = s.argError := rfl

@[simp] theorem bufferOrdinary_beginIssue : (s.beginIssue i c).bufferOrdinary = s.bufferOrdinary := rfl

@[simp] theorem latched_beginIssue (a : Strategy) : (s.beginIssue i c).latched a = s.latched a := rfl

@[simp] theorem argError_respond : (s.respond r).argError = s.argError := rfl

@[simp] theorem bufferOrdinary_respond : (s.respond r).bufferOrdinary = s.bufferOrdinary := rfl

theorem badDim_eq_false : s.badDim = false ↔
    0 < s.argW ∧ s.argW ≤ s.params.maxWidth.toNat ∧ 0 < s.argH ∧ s.argH ≤ s.params.maxHeight.toNat := by
  simp [State.badDim, Nat.pos_iff_ne_zero, and_assoc]

theorem badLen_eq_false : s.badLen = false ↔ s.argLen = s.argW * s.argH * 4 := by simp [State.badLen]

theorem badAlign_eq_false : s.badAlign = false ↔ s.argBase % 4 = 0 := by simp [State.badAlign]

theorem badRange_eq_false : s.badRange = false ↔ s.argBase + s.argLen ≤ 2 ^ 32 := by
  simp [State.badRange]

/-- The operands pass exactly when every check does (R141). -/
theorem argError_eq_none : s.argError = none ↔
    s.badDim = false ∧ s.badLen = false ∧ s.badAlign = false ∧ s.badRange = false := by
  unfold State.argError
  cases s.badDim <;> cases s.badLen <;> cases s.badAlign <;> cases s.badRange <;> simp

/-- The checks find no error but the four of the operands (R157 to R159). -/
theorem argError_eq_some {e : ErrCode} (h : s.argError = some e) :
    e = .badDim ∨ e = .badLen ∨ e = .badAlign ∨ e = .badRange := by
  unfold State.argError at h
  split at h
  · exact .inl (Option.some.inj h).symm
  · split at h
    · exact .inr (.inl (Option.some.inj h).symm)
    · split at h
      · exact .inr (.inr (.inl (Option.some.inj h).symm))
      · split at h
        · exact .inr (.inr (.inr (Option.some.inj h).symm))
        · cases h

/-- Passing operands keep the buffer inside memory (R45, R56). -/
theorem buffer_in_memory (h : s.argError = none) : s.argBase + 4 * (s.argW * s.argH) ≤ memoryLimit := by
  obtain ⟨-, h2, -, h4⟩ := (argError_eq_none s).1 h
  rw [badLen_eq_false] at h2
  rw [badRange_eq_false] at h4
  unfold memoryLimit
  omega

end args

/-- What acceptance can do (R144, R57). -/
theorem accept_cases (a : Strategy) (s : State) :
    (s.bufferOrdinary = true ∧ s.accept a = s.startRun a) ∨
    (s.bufferOrdinary = false ∧ s.accept a = (s.startRun a).recordFault .bufferNotMemory) := by
  unfold State.accept
  cases h : s.bufferOrdinary <;> simp

/-- What the issue of a command can do (R140, R141): it always answers a next state. -/
theorem issueCommand_cases (a : Strategy) (i : Bool) (s : State) :
    (s.busy = true ∧ issueCommand a i s = .next s) ∨
    (s.busy = false ∧ ∃ c, s.argError = some c ∧ issueCommand a i s = .next ((s.beginIssue i a.code).raiseError c)) ∨
    (s.busy = false ∧ s.argError = none ∧ issueCommand a i s = .next ((s.beginIssue i a.code).accept a)) := by
  unfold issueCommand
  cases hb : s.busy
  · rw [if_neg (by simp)]
    cases h : s.argError with
    | none => exact .inr (.inr ⟨rfl, rfl, by simp [h]⟩)
    | some c => exact .inr (.inl ⟨rfl, c, rfl, by simp [h, State.reject]⟩)
  · exact .inl ⟨rfl, by simp⟩

/-- What the write of an illegal command word can do (R140, R160). -/
theorem issueIllegal_cases (d : Word) (e : WordError) (s : State) :
    (s.busy = true ∧ issueIllegal d e s = .next s) ∨
    (s.busy = false ∧
      issueIllegal d e s = .next ((s.beginIssue (irqBit d) (algoField d)).raiseError (wordErrCode e))) := by
  unfold issueIllegal
  cases hb : s.busy
  · exact .inr ⟨rfl, by simp [State.reject]⟩
  · exact .inl ⟨rfl, by simp⟩

/-- What CTRL.SET can do (R140, R142). -/
theorem execCtrlSet_cases (i : Bool) (c : BitVec 4) (s : State) :
    (s.busy = true ∧ execCtrlSet i c s = .next s) ∨ (s.busy = false ∧ execCtrlSet i c s = .next (s.setCtrl i c)) := by
  unfold execCtrlSet
  cases hb : s.busy
  · exact .inr ⟨rfl, by simp⟩
  · exact .inl ⟨rfl, by simp⟩

/-- What an instruction can do: it always answers a next state, and that of its own shared operation. -/
theorem exec_cases (i : Instr) (s : State) :
    (∃ a irqEn, i = Strategy.instr a irqEn ∧ exec i s = issueCommand a irqEn s) ∨
    (∃ irqEn algo, i = .ctrlSet irqEn algo ∧ exec i s = execCtrlSet irqEn algo s) := by
  cases i with
  | ditherAtk b => exact .inl ⟨.atk, b, rfl, rfl⟩
  | ditherFs b => exact .inl ⟨.fs, b, rfl, rfl⟩
  | ditherJjn b => exact .inl ⟨.jjn, b, rfl, rfl⟩
  | ditherStk b => exact .inl ⟨.stk, b, rfl, rfl⟩
  | ditherBayer2 b => exact .inl ⟨.bayer2, b, rfl, rfl⟩
  | ditherBayer4 b => exact .inl ⟨.bayer4, b, rfl, rfl⟩
  | ditherBayer8 b => exact .inl ⟨.bayer8, b, rfl, rfl⟩
  | ditherClust4 b => exact .inl ⟨.clust4, b, rfl, rfl⟩
  | ctrlSet b c => exact .inr ⟨b, c, rfl, rfl⟩

/-- A command is the issue of its strategy. -/
@[simp] theorem exec_instr (a : Strategy) (irqEn : Bool) (s : State) : exec (a.instr irqEn) s = issueCommand a irqEn s := by
  cases a <;> rfl

/-- The engine's read, by the platform's answer (R51, R161). -/
theorem engineRead_cases (a : Nat) (s : State) :
    (s.nextAnswer .read a = .ok ∧ engineRead a s = (some (s.mem.read4 a), s.dropAnswer)) ∨
    (∃ x y z, s.nextAnswer .read a = .error x y z ∧ engineRead a s = (none, s.dropAnswer)) := by
  unfold engineRead
  cases h : s.nextAnswer .read a with
  | ok => exact .inl ⟨rfl, rfl⟩
  | error x y z => exact .inr ⟨x, y, z, rfl, rfl⟩

/-- The engine's write, by the platform's answer (R51, R161): the state differs in the memory bytes, the answer queue and the draws. -/
theorem engineWrite_cases (a : Nat) (out : Byte) (s : State) :
    (s.nextAnswer .write a = .ok ∧
      engineWrite a out s =
        (true, s.dropAnswer.useStoredBytes.writePixel a (s.dropAnswer.storedBytes a out) true true true)) ∨
    (∃ x y z, s.nextAnswer .write a = .error x y z ∧
      engineWrite a out s = (false, s.dropAnswer.useStoredBytes.writePixel a (s.dropAnswer.storedBytes a out) x y z)) := by
  unfold engineWrite
  cases h : s.nextAnswer .write a with
  | ok => exact .inl ⟨rfl, rfl⟩
  | error x y z => exact .inr ⟨x, y, z, rfl, rfl⟩

/-- The next answer is the first of the queue. -/
theorem nextAnswer_cons {s : State} {b : BusAnswer} {rest : List BusAnswer} (h : s.busAnswers = b :: rest)
    (kind : AccessKind) (a : Nat) : s.nextAnswer kind a = b := by
  simp [State.nextAnswer, h]

/-- Using an answer takes it from the queue and draws nothing. -/
theorem dropAnswer_cons {s : State} {b : BusAnswer} {rest : List BusAnswer} (h : s.busAnswers = b :: rest) :
    s.dropAnswer = { s with busAnswers := rest } := by
  simp [State.dropAnswer, h]

@[simp] theorem marked_dropAnswer (s : State) : s.dropAnswer.marked = s.marked := by simp [State.marked]

@[simp] theorem marked_useStoredBytes (s : State) : s.useStoredBytes.marked = s.marked := by simp [State.marked]

@[simp] theorem marked_writePixel (s : State) (a : Nat) (px : Byte × Byte × Byte) (x y z : Bool) :
    (s.writePixel a px x y z).marked = s.marked := rfl

/-- In an unmarked state the output itself is stored (R107). -/
theorem storedBytes_of_unmarked {s : State} (h : s.marked = false) (a : Nat) (out : Byte) :
    s.storedBytes a out = (out, out, out) := by
  simp [State.storedBytes, h]

theorem useStoredBytes_of_unmarked {s : State} (h : s.marked = false) : s.useStoredBytes = s := by
  simp [State.useStoredBytes, h]

end Sys2Proof.Machine
end

