-- ==== Sys2Proof/Laws/Engine.lean ====
section
/-! SUPPORT. What a pixel step can do, said once (R145, R146, R161). -/

namespace Sys2Proof.Machine

open Sys2Proof

/-- The pixel a pixel step reads (R104, R125). -/
def readLum (a : Nat) (s : State) : Nat := lum (s.mem.read a) (s.mem.read (a + 1)) (s.mem.read (a + 2))

/-- The output of a pixel step at pixel p, by the family (R105, R127). -/
def stepOutput (p : Nat) (s : State) : Nat :=
  let l := readLum (s.lat.pixelAddr p) s
  if isDiffusion s.lat.strategy then binarize (adjustedGray l (s.errAt p)) s.lat.t
  else orderedOut s.lat.strategy s.lat.t (s.lat.xOf p) (s.lat.yOf p) l

/-- The quantization error of a diffusion pixel step at pixel p (R106). -/
def stepError (p : Nat) (s : State) : F64 :=
  quantError (adjustedGray (readLum (s.lat.pixelAddr p) s) (s.errAt p)) (stepOutput p s)

/-- The state after the write of a pixel step, under a mask (R51). -/
def wrotePixel (p : Nat) (x y z : Bool) (s : State) : State :=
  s.dropAnswer.dropAnswer.useStoredBytes.writePixel (s.lat.pixelAddr p)
    (s.dropAnswer.dropAnswer.storedBytes (s.lat.pixelAddr p) (BitVec.ofNat 8 (stepOutput p s))) x y z

/-- What the computation of a pixel step can do (R104 to R108, R128): fail at its read, fail at its write, or succeed. -/
theorem computePixel_cases (p : Nat) (s : State) :
    (∃ x y z, s.nextAnswer .read (s.lat.pixelAddr p) = .error x y z ∧
      computePixel p s = .fail (s.lat.pixelAddr p) s.dropAnswer) ∨
    (s.nextAnswer .read (s.lat.pixelAddr p) = .ok ∧
      ∃ x y z, s.dropAnswer.nextAnswer .write (s.lat.pixelAddr p) = .error x y z ∧
        computePixel p s = .fail (s.lat.pixelAddr p) (wrotePixel p x y z s)) ∨
    (s.nextAnswer .read (s.lat.pixelAddr p) = .ok ∧ s.dropAnswer.nextAnswer .write (s.lat.pixelAddr p) = .ok ∧
      computePixel p s = .ok (if isDiffusion s.lat.strategy then (wrotePixel p true true true s).diffuse p (stepError p s)
        else wrotePixel p true true true s)) := by
  rcases engineRead_cases (s.lat.pixelAddr p) s with ⟨hr, her⟩ | ⟨x, y, z, hr, her⟩
  · cases hd : isDiffusion s.lat.strategy
    · have ho : orderedOut s.lat.strategy s.lat.t (s.lat.xOf p) (s.lat.yOf p) (readLum (s.lat.pixelAddr p) s) =
          stepOutput p s := by simp [stepOutput, hd]
      rcases engineWrite_cases (s.lat.pixelAddr p) (BitVec.ofNat 8 (stepOutput p s)) s.dropAnswer with
        ⟨hw, hew⟩ | ⟨x, y, z, hw, hew⟩
      · refine .inr (.inr ⟨hr, hw, ?_⟩)
        simp only [readLum] at ho
        simp [computePixel, hd, orderedPixel, her, Memory.read4, ho, hew, wrotePixel]
      · refine .inr (.inl ⟨hr, x, y, z, hw, ?_⟩)
        simp only [readLum] at ho
        simp [computePixel, hd, orderedPixel, her, Memory.read4, ho, hew, wrotePixel]
    · have ho : binarize (adjustedGray (readLum (s.lat.pixelAddr p) s) (s.errAt p)) s.lat.t = stepOutput p s := by
        simp [stepOutput, hd]
      have he : s.dropAnswer.errAt p = s.errAt p := by simp [State.errAt]
      rcases engineWrite_cases (s.lat.pixelAddr p) (BitVec.ofNat 8 (stepOutput p s)) s.dropAnswer with
        ⟨hw, hew⟩ | ⟨x, y, z, hw, hew⟩
      · refine .inr (.inr ⟨hr, hw, ?_⟩)
        simp only [readLum] at ho
        simp [computePixel, hd, diffusePixel, her, Memory.read4, ho, he, hew, wrotePixel, stepError, readLum]
      · refine .inr (.inl ⟨hr, x, y, z, hw, ?_⟩)
        simp only [readLum] at ho
        simp [computePixel, hd, diffusePixel, her, Memory.read4, ho, he, hew, wrotePixel]
  · exact .inl ⟨x, y, z, hr, by
      cases hd : isDiffusion s.lat.strategy <;> simp [computePixel, hd, diffusePixel, orderedPixel, her]⟩

/-- What the ENGINE's move can do (R145): nothing where no pixel step is enabled; a fault beyond memory; an abort; or a pixel
done. -/
theorem pixelStep_cases (s : State) :
    (s.engineEnabled = false ∧ pixelStep s = .next s) ∨
    (s.engineEnabled = true ∧ memoryLimit < s.lat.pixelAddr s.scanP + 4 ∧ pixelStep s = .fault .noSuchAddress) ∨
    (s.engineEnabled = true ∧ s.lat.pixelAddr s.scanP + 4 ≤ memoryLimit ∧
      pixelStep s = .next (finishPixel s.scanP (computePixel s.scanP s))) := by
  unfold pixelStep
  cases h : s.engineEnabled
  · exact .inl ⟨rfl, by simp⟩
  · by_cases hm : s.lat.pixelAddr s.scanP + 4 ≤ memoryLimit
    · exact .inr (.inr ⟨rfl, hm, by simp [hm]⟩)
    · exact .inr (.inl ⟨rfl, by omega, by simp [hm]⟩)

/-- A pixel step is enabled while FSM = RUN and pixels are left (R145). -/
theorem engineEnabled_iff (s : State) : s.engineEnabled = true ↔ s.fsm = .run ∧ s.scanP < s.lat.pixels := by
  simp [State.engineEnabled]

/-- The ENGINE's move is never refused. -/
theorem pixelStep_not_refused (s : State) (r : Refusal) : pixelStep s ≠ .refused r := by
  rcases pixelStep_cases s with ⟨-, h⟩ | ⟨-, -, h⟩ | ⟨-, -, h⟩ <;> simp [h]

section wrotePixel
variable (p : Nat) (x y z : Bool) (s : State)

/-- Memory after the write of a pixel step. -/
theorem wrotePixel_mem : (wrotePixel p x y z s).mem =
    let px := s.dropAnswer.dropAnswer.storedBytes (s.lat.pixelAddr p) (BitVec.ofNat 8 (stepOutput p s))
    s.mem.writeRgb (s.lat.pixelAddr p) px.1 px.2.1 px.2.2 x y z := by
  simp [wrotePixel]

@[simp] theorem wrotePixel_irqEn : (wrotePixel p x y z s).irqEn = s.irqEn := by simp [wrotePixel]
@[simp] theorem wrotePixel_algo : (wrotePixel p x y z s).algo = s.algo := by simp [wrotePixel]
@[simp] theorem wrotePixel_busy : (wrotePixel p x y z s).busy = s.busy := by simp [wrotePixel]
@[simp] theorem wrotePixel_done : (wrotePixel p x y z s).done = s.done := by simp [wrotePixel]
@[simp] theorem wrotePixel_err : (wrotePixel p x y z s).err = s.err := by simp [wrotePixel]
@[simp] theorem wrotePixel_errcode : (wrotePixel p x y z s).errcode = s.errcode := by simp [wrotePixel]
@[simp] theorem wrotePixel_width : (wrotePixel p x y z s).width = s.width := by simp [wrotePixel]
@[simp] theorem wrotePixel_height : (wrotePixel p x y z s).height = s.height := by simp [wrotePixel]
@[simp] theorem wrotePixel_threshold : (wrotePixel p x y z s).threshold = s.threshold := by simp [wrotePixel]
@[simp] theorem wrotePixel_bufBase : (wrotePixel p x y z s).bufBase = s.bufBase := by simp [wrotePixel]
@[simp] theorem wrotePixel_bufLen : (wrotePixel p x y z s).bufLen = s.bufLen := by simp [wrotePixel]
@[simp] theorem wrotePixel_progress : (wrotePixel p x y z s).progress = s.progress := by simp [wrotePixel]
@[simp] theorem wrotePixel_faultAddr : (wrotePixel p x y z s).faultAddr = s.faultAddr := by simp [wrotePixel]
@[simp] theorem wrotePixel_fsm : (wrotePixel p x y z s).fsm = s.fsm := by simp [wrotePixel]
@[simp] theorem wrotePixel_scanP : (wrotePixel p x y z s).scanP = s.scanP := by simp [wrotePixel]
@[simp] theorem wrotePixel_lat : (wrotePixel p x y z s).lat = s.lat := by simp [wrotePixel]
@[simp] theorem wrotePixel_errbuf : (wrotePixel p x y z s).errbuf = s.errbuf := by simp [wrotePixel]
@[simp] theorem wrotePixel_hostRace : (wrotePixel p x y z s).hostRace = s.hostRace := by simp [wrotePixel]
@[simp] theorem wrotePixel_bufferNotMemory : (wrotePixel p x y z s).bufferNotMemory = s.bufferNotMemory := by
  simp [wrotePixel]
@[simp] theorem wrotePixel_params : (wrotePixel p x y z s).params = s.params := by simp [wrotePixel]
@[simp] theorem wrotePixel_hostCache : (wrotePixel p x y z s).hostCache = s.hostCache := by simp [wrotePixel]
@[simp] theorem wrotePixel_inputs : (wrotePixel p x y z s).inputs = s.inputs := by simp [wrotePixel]
@[simp] theorem wrotePixel_resp : (wrotePixel p x y z s).resp = s.resp := by simp [wrotePixel]

/-- The write of a pixel step leaves every byte but the pixel's R, G and B as it was (R52). -/
theorem wrotePixel_read_of_ne {c : Nat} (h : c < s.lat.pixelAddr p ∨ s.lat.pixelAddr p + 3 ≤ c) :
    (wrotePixel p x y z s).mem.read c = s.mem.read c := by
  rw [wrotePixel_mem]
  exact Memory.read_writeRgb_of_ne _ _ _ _ _ _ _ h

/-- The write of a pixel step keeps the canonical form. -/
theorem wrotePixel_wf (h : s.mem.wf = true) (hlim : s.lat.pixelAddr p + 4 ≤ memoryLimit) :
    (wrotePixel p x y z s).mem.wf = true := by
  rw [wrotePixel_mem]
  exact Memory.writeRgb_wf h hlim

end wrotePixel

/-- The ENGINE's move takes nothing from the queue of events. -/
theorem pixelStep_inputs {s t : State} (h : pixelStep s = .next t) : t.inputs = s.inputs := by
  rcases pixelStep_cases s with ⟨-, e⟩ | ⟨-, -, e⟩ | ⟨-, -, e⟩ <;> rw [e] at h <;> cases h
  · rfl
  · rcases computePixel_cases s.scanP s with ⟨x, y, z, -, e'⟩ | ⟨-, x, y, z, -, e'⟩ | ⟨-, -, e'⟩ <;> rw [e']
    · simp [finishPixel]
    · simp [finishPixel]
    · simp only [finishPixel]
      cases isDiffusion s.lat.strategy <;> simp <;> split <;> simp

end Sys2Proof.Machine
end

