-- ==== Sys2Proof/Laws/HostSide.lean ====
section
/-! SUPPORT. What the host's accesses can do, said once (R135 to R143, R62, R68, R172). -/

namespace Sys2Proof.Machine

open Sys2Proof

/-- The register of an offset has that offset (R18, R136). -/
theorem regAt_eq_some {n : Nat} {r : RegName} (h : regAt n = some r) : n % 4 = 0 ∧ n < 0x40 ∧ n = (regOffset r).toNat := by
  unfold regAt at h
  split at h <;> simp_all <;> subst h <;> decide

/-- Every register is found at its offset (R18). -/
@[simp] theorem legalReg_regOffset (r : RegName) : legalReg .word (regOffset r) = some r := by
  cases r <;> rfl

/-- Only a 32-bit aligned access inside the window names a register (R136). -/
theorem legalReg_eq_none {size : Size} {offset : Word} (h : size ≠ .word ∨ offset.toNat % 4 ≠ 0 ∨ 0x40 ≤ offset.toNat) :
    legalReg size offset = none := by
  cases size <;> first | rfl | skip
  simp only [ne_eq, not_true_eq_false, false_or] at h
  cases hr : regAt offset.toNat with
  | none => simp [legalReg, hr]
  | some r =>
    have := regAt_eq_some hr
    omega

/-- The accesses that name a register are the well-formed ones (R69, R136). -/
theorem legalReg_isSome_iff (size : Size) (offset : Word) :
    (legalReg size offset).isSome = true ↔ (Access.rd size offset).wellFormed = true := by
  have hw : (Access.rd size offset).wellFormed = true ↔
      size = .word ∧ offset.toNat % 4 = 0 ∧ offset.toNat < 0x40 := by
    simp [Access.wellFormed, and_assoc]
  rw [hw]
  constructor
  · intro h
    obtain ⟨r, hr⟩ := Option.isSome_iff_exists.1 h
    cases size <;> simp [legalReg] at hr
    obtain ⟨h1, h2, -⟩ := regAt_eq_some hr
    exact ⟨rfl, h1, h2⟩
  · rintro ⟨rfl, h1, h2⟩
    have h3 : ∀ n, n < 0x40 → n % 4 = 0 → (regAt n).isSome = true := by decide
    exact h3 _ h2 h1

/-- What a memory access of another agent can do (R62, R50, R57). -/
theorem memAccess_cases (who : Requester) (op : MemOp) (s : State) :
    (s.races (opAddr op) = true ∧ memAccess who op s = .next ((s.recordFault .hostRace).respond .noValue)) ∨
    (s.races (opAddr op) = false ∧ s.inWindow (opAddr op) = true ∧ memAccess who op s = .next (s.respond .errorResponse)) ∨
    (s.races (opAddr op) = false ∧ s.inWindow (opAddr op) = false ∧ s.inDevice (opAddr op) = true ∧
      memAccess who op s = .next (s.respond .noValue)) ∨
    (s.races (opAddr op) = false ∧ s.inWindow (opAddr op) = false ∧ s.inDevice (opAddr op) = false ∧
      ((∃ a, op = .read a ∧ memAccess who op s = .next (readMem who a.toNat s)) ∨
        (∃ a b, op = .write a b ∧ memAccess who op s = .next (writeMem who a.toNat b s)))) := by
  unfold memAccess
  cases hr : s.races (opAddr op)
  · cases hw : s.inWindow (opAddr op)
    · cases hd : s.inDevice (opAddr op)
      · refine .inr (.inr (.inr ⟨rfl, rfl, rfl, ?_⟩))
        cases op with
        | read a => exact .inl ⟨a, rfl, by simp [opAddr]⟩
        | write a b => exact .inr ⟨a, b, rfl, by simp [opAddr]⟩
      · exact .inr (.inr (.inl ⟨rfl, rfl, rfl, by simp⟩))
    · exact .inr (.inl ⟨rfl, rfl, by simp⟩)
  · exact .inl ⟨rfl, by simp⟩

/-- A read of memory changes only the host's copies and the answer. -/
theorem readMem_cases (who : Requester) (a : Nat) (s : State) :
    ∃ cs b, readMem who a s = { s with hostCache := cs, resp := .memData b } := by
  unfold readMem
  split
  · split
    · exact ⟨s.hostCache, _, rfl⟩
    · exact ⟨_, _, rfl⟩
  · exact ⟨s.hostCache, _, rfl⟩

/-- A write of memory changes the byte it writes, in memory or in the host's copy. -/
theorem writeMem_cases (who : Requester) (a : Nat) (b : Byte) (s : State) :
    (∃ cs, writeMem who a b s = { s with hostCache := cs, resp := .memWritten }) ∨
    writeMem who a b s = { s with mem := s.mem.write a b, resp := .memWritten } := by
  unfold writeMem
  split
  · exact .inl ⟨_, rfl⟩
  · exact .inr rfl

/-- What cleaning a byte can do (R61, R68). -/
theorem cleanCopy_cases (a : Nat) (s : State) :
    cleanCopy a s = s ∨ (s.races a = true ∧ cleanCopy a s = s.recordFault .hostRace) ∨
    (s.races a = false ∧ ∃ b cs, cleanCopy a s = { s with mem := s.mem.write a b, hostCache := cs }) := by
  unfold cleanCopy
  split
  · exact .inl rfl
  · split
    · cases hr : s.races a
      · exact .inr (.inr ⟨rfl, _, _, rfl⟩)
      · exact .inr (.inl ⟨rfl, by simp⟩)
    · exact .inl rfl

/-- What discarding a byte can do (R63, R68). -/
theorem discardCopy_cases (a : Nat) (s : State) : ∃ cs, discardCopy a s = { s with hostCache := cs } := by
  unfold discardCopy
  split
  · exact ⟨s.hostCache, rfl⟩
  · split
    · exact ⟨s.hostCache, rfl⟩
    · exact ⟨_, rfl⟩

/-- What a register write can do while BUSY = 1 (R137 to R139, R143): clear flags, or nothing. -/
theorem regWrite_busy {s : State} (h : s.busy = true) (r : RegName) (d : Word) :
    s.regWrite r d = s ∨ s.regWrite r d = s.writeStatus d := by
  cases r <;> simp [State.regWrite, h]

/-- What a configuration write does while BUSY = 0 (R139). -/
theorem regWrite_idle {s : State} (h : s.busy = false) (d : Word) :
    s.regWrite .width d = { s with width := d } ∧ s.regWrite .height d = { s with height := d } ∧
    s.regWrite .threshold d = { s with threshold := d } ∧ s.regWrite .bufBase d = { s with bufBase := d } ∧
    s.regWrite .bufLen d = { s with bufLen := d } := by
  have hn : ¬s.busy = true := by rw [h]; exact Bool.false_ne_true
  exact ⟨if_neg hn, if_neg hn, if_neg hn, if_neg hn, if_neg hn⟩

/-- A STATUS write, written out (R143). -/
theorem writeStatus_eq (d : Word) (s : State) : s.writeStatus d =
    { s with
      done := s.done && !d.getLsbD 1
      err := s.err && !d.getLsbD 2
      errcode := if d.getLsbD 2 then .none else s.errcode } := by
  unfold State.writeStatus
  cases d.getLsbD 1 <;> cases d.getLsbD 2 <;> simp [State.ackDone, State.ackErr]

end Sys2Proof.Machine
end

