-- ==== Sys2Proof/Laws/Invariant.lean ====
section
/-! SUPPORT. What the invariant and the premises of claims give at once. -/

namespace Sys2Proof.Machine

open Sys2Proof

/-- Every state that meets the invariant is well-formed for a launch. -/
theorem StateInv.launchWf {s : State} (h : StateInv s) : LaunchWf s := ⟨h.params_wf, h.mem_wf⟩

/-- The operands pass exactly when no check finds an error (R141). -/
theorem argsPass_iff (s : State) : ArgsPass s ↔ s.argError = none := by
  rw [argError_eq_none, badDim_eq_false, badLen_eq_false, badAlign_eq_false, badRange_eq_false]
  unfold ArgsPass State.argW State.argH State.argLen State.argBase
  tauto

section running
variable {s : State} (h : RunInv s)
include h

/-- A run's buffer is the one the registers describe (R37). -/
theorem RunInv.pixels_eq : s.lat.pixels = s.argW * s.argH := by
  rw [h.latched]
  rfl

theorem RunInv.base_eq : s.lat.base = s.bufBase := by
  rw [h.latched]
  rfl

/-- A run's pixels are at most MAX_WIDTH×MAX_HEIGHT (R7). -/
theorem RunInv.pixels_le : s.lat.pixels ≤ s.params.maxWidth.toNat * s.params.maxHeight.toNat := by
  have hd := ((argError_eq_none s).1 h.args_pass).1
  rw [badDim_eq_false] at hd
  rw [h.pixels_eq]
  exact Nat.mul_le_mul hd.2.1 hd.2.2.2

/-- A run's buffer lies inside memory (R45, R56). -/
theorem RunInv.buffer_in_memory : s.lat.base.toNat + 4 * s.lat.pixels ≤ memoryLimit := by
  rw [h.pixels_eq, h.base_eq]
  exact Machine.buffer_in_memory s h.args_pass

end running

/-- The invariant reads the registers, LAT, the scan, ERRBUF's size, the parameters and memory's form, and nothing else. -/
theorem StateInv.congr {s t : State} (h : StateInv s) (hmem : t.mem.wf = true) (hparams : t.params = s.params)
    (hbusy : t.busy = s.busy) (hfsm : t.fsm = s.fsm) (hdone : t.done = s.done) (herr : t.err = s.err)
    (hcode : t.errcode = s.errcode) (hlat : t.lat = s.lat) (hwidth : t.width = s.width) (hheight : t.height = s.height)
    (hthreshold : t.threshold = s.threshold) (hbase : t.bufBase = s.bufBase) (hlen : t.bufLen = s.bufLen)
    (halgo : t.algo = s.algo) (hscan : t.scanP = s.scanP) (hprogress : t.progress = s.progress)
    (herrbuf : t.errbuf.length = s.errbuf.length) : StateInv t := by
  obtain ⟨hp, -, ⟨f1, f2, f3, f4⟩, hr, hb⟩ := h
  refine ⟨hparams ▸ hp, hmem, ⟨by rw [hbusy, hfsm]; exact f1, by rw [hbusy, hdone, herr]; exact f2,
    by rw [hdone, herr]; exact f3, by rw [herr, hcode]; exact f4⟩, fun hrun => ?_, by rw [hparams, hscan]; exact hb⟩
  obtain ⟨r1, r2, r3, r4, r5, r6⟩ := hr (hfsm ▸ hrun)
  refine ⟨?_, by rw [hlat, halgo]; exact r2, ?_, by rw [hscan, hlat]; exact r4, by rw [hscan, hprogress]; exact r5,
    by rw [hlat, herrbuf]; exact r6⟩
  · rw [hlat]
    simp only [State.latched, hwidth, hheight, hthreshold, hbase]
    exact r1
  · simp only [State.argError, State.badDim, State.badLen, State.badAlign, State.badRange, State.argW, State.argH,
      State.argLen, State.argBase, hparams, hwidth, hheight, hbase, hlen] at r3 ⊢
    exact r3

/-- A state without errors of its own has ERRCODE = 0 (R154). -/
theorem FlagsInv.code_none {s : State} (h : FlagsInv s) (he : s.err = false) : s.errcode = .none := by
  by_contra hc
  rw [h.err_iff_code.2 hc] at he
  cases he

end Sys2Proof.Machine
end

