-- ==== Sys2Proof/Laws/PerInstr.lean ====
section
/-! SUPPORT. Facts said of each instruction, one lemma per constructor. -/

namespace Sys2Proof.Laws

open Sys2Proof

/-- The word of a well-formed instruction lies in its row of the opcode table (R81). -/
def EncodesInRow.Statement (i : Instr) : Prop :=
  i.wellFormed = true → encode i &&& i.row.mask = i.row.pattern

theorem EncodesInRow.ditherAtk (irqEn : Bool) : EncodesInRow.Statement (.ditherAtk irqEn) := fun _ => by
  revert irqEn; decide

theorem EncodesInRow.ditherFs (irqEn : Bool) : EncodesInRow.Statement (.ditherFs irqEn) := fun _ => by
  revert irqEn; decide

theorem EncodesInRow.ditherJjn (irqEn : Bool) : EncodesInRow.Statement (.ditherJjn irqEn) := fun _ => by
  revert irqEn; decide

theorem EncodesInRow.ditherStk (irqEn : Bool) : EncodesInRow.Statement (.ditherStk irqEn) := fun _ => by
  revert irqEn; decide

theorem EncodesInRow.ditherBayer2 (irqEn : Bool) : EncodesInRow.Statement (.ditherBayer2 irqEn) := fun _ => by
  revert irqEn; decide

theorem EncodesInRow.ditherBayer4 (irqEn : Bool) : EncodesInRow.Statement (.ditherBayer4 irqEn) := fun _ => by
  revert irqEn; decide

theorem EncodesInRow.ditherBayer8 (irqEn : Bool) : EncodesInRow.Statement (.ditherBayer8 irqEn) := fun _ => by
  revert irqEn; decide

theorem EncodesInRow.ditherClust4 (irqEn : Bool) : EncodesInRow.Statement (.ditherClust4 irqEn) := fun _ => by
  revert irqEn; decide

theorem EncodesInRow.ctrlSet (irqEn : Bool) (algo : BitVec 4) : EncodesInRow.Statement (.ctrlSet irqEn algo) := fun _ => by
  revert irqEn algo; decide

end Sys2Proof.Laws
end

