-- ==== Sys2Proof/Laws/Step.lean ====
section
/-! SUPPORT. What a step can do, by the next event (R5, R163). -/

namespace Sys2Proof.Machine

open Sys2Proof

theorem step_nil {s : State} (h : s.inputs = []) : step s = pixelStep s := by simp [step, h]

theorem step_cons {s : State} {e : Event} {rest : List Event} (h : s.inputs = e :: rest) :
    step s = eventStep e (s.withInputs rest) := by simp [step, h]

/-- A word written to CTRL runs an instruction or is rejected (R80). -/
theorem ctrlStep_cases (d : Word) (s : State) :
    (∃ i, decodeWord d = .ok i ∧ ctrlStep d s = exec i (s.respond .written)) ∨
    (∃ e, decodeWord d = .error e ∧ ctrlStep d s = issueIllegal d e (s.respond .written)) := by
  unfold ctrlStep
  cases h : decodeWord d with
  | ok i => exact .inl ⟨i, rfl, rfl⟩
  | error e => exact .inr ⟨e, rfl, rfl⟩

/-- A register access is a CTRL write, another access, or illegal (R70, R136). -/
theorem accessStep_cases (a : Access) (s : State) :
    (∃ d, ctrlWrite a = some d ∧ accessStep a s = ctrlStep d s) ∨
    (∃ r, accessStep a s = .next (s.respond r)) ∨
    (∃ r d, accessStep a s = .next ((s.regWrite r d).respond .written)) := by
  unfold accessStep
  cases h : ctrlWrite a with
  | some d => exact .inl ⟨d, rfl, rfl⟩
  | none =>
    refine .inr ?_
    cases a with
    | rd size offset =>
      cases hl : legalReg size offset with
      | none => exact .inl ⟨.errorResponse, by simp [hostAccess, hl]⟩
      | some r => exact .inl ⟨.data (s.regRead r), by simp [hostAccess, hl]⟩
    | wr size offset d =>
      cases hl : legalReg size offset with
      | none => exact .inl ⟨.errorResponse, by simp [hostAccess, hl]⟩
      | some r => exact .inr ⟨r, d, by simp [hostAccess, hl]⟩

/-- The write of a word to CTRL is its step. -/
theorem step_ctrl {s : State} {d : Word} {rest : List Event} (h : s.inputs = .access (.wr .word 0x0C d) :: rest) :
    step s = ctrlStep d (s.withInputs rest) := by
  rw [step_cons h]
  rfl

end Sys2Proof.Machine
end

