-- ==== Sys2Proof/Tests/Slice0.lean ====
section
/-! SUPPORT. Tests: ill-formed terms refused, words of the encoding tables decoded, single steps of the spec's worked examples, and for
each statement with hypotheses a state that meets them. -/

namespace Sys2Proof.Tests

open Sys2Proof Sys2Proof.Machine

/-! Helpers. -/

/-- Parameters of a small platform: the defaults of R7, the window at 0xF0000000, a device at 0xE0000000. -/
def platform : Params where
  maxWidth := 4096
  maxHeight := 65535
  productForm := .fractionConstant
  regBase := 0xF0000000
  coherent := true
  devices := [(0xE0000000, 0x1000)]

/-- A memory with opaque gray pixels (R = G = B, A = 255) from `base` on. -/
def grayMemory (base : Nat) : List Nat → Memory
  | [] => []
  | l :: rest =>
    let v := BitVec.ofNat 8 l
    ((((grayMemory (base + 4) rest).write base v).write (base + 1) v).write (base + 2) v).write (base + 3) 255

/-- An idle block configured for a gray image at 0x100, the platform answering two pixels' accesses. -/
def configured (w h : Nat) (t : Word) (lums : List Nat) : State :=
  { State.reset with
    params := platform
    width := BitVec.ofNat 32 w
    height := BitVec.ofNat 32 h
    threshold := t
    bufBase := 0x100
    bufLen := BitVec.ofNat 32 (w * h * 4)
    mem := grayMemory 0x100 lums
    busAnswers := [.ok, .ok, .ok, .ok] }

/-- A run just accepted. -/
def running (a : Strategy) (s : State) : State := (s.beginIssue true a.code).accept a

/-- A run about to step pixel p, with this ERRBUF. -/
def runningAt (a : Strategy) (p : Nat) (buf : List F64) (s : State) : State :=
  { running a s with scanP := p, progress := BitVec.ofNat 32 p, errbuf := buf }

/-- Does an outcome give a next state with this property? -/
def holds (o : Out) (p : State → Bool) : Bool :=
  match o with
  | .next t => p t
  | .fault _ => false
  | .refused _ => false

theorem exists_of_holds {o : Out} {p : State → Bool} (h : holds o p = true) : ∃ t, o = .next t ∧ p t = true := by
  cases o with
  | next t => exact ⟨t, rfl, h⟩
  | fault f => cases h
  | refused r => cases h

/-- The byte of channel c of pixel p of the image at 0x100. -/
def channel (t : State) (p c : Nat) : Nat := (t.mem.read (0x100 + 4 * p + c)).toNat

/-! Ill-formed terms. -/

theorem test_byte_access_is_ill_formed : (Access.rd .byte 0x10).wellFormed = false := by decide
theorem test_misaligned_access_is_ill_formed : (Access.wr .word 0x12 0).wellFormed = false := by decide
theorem test_access_beyond_window_is_ill_formed : (Access.wr .word 0x40 0).wellFormed = false := by decide
theorem test_last_offset_is_well_formed : (Access.rd .word 0x3C).wellFormed = true := by decide
theorem test_zero_max_width_is_ill_formed : Params.wellFormed { platform with maxWidth := 0 } = false := by decide
theorem test_zero_max_height_is_ill_formed : Params.wellFormed { platform with maxHeight := 0 } = false := by decide
theorem test_platform_is_well_formed : platform.wellFormed = true := by decide

/-! Decoding, words written from the tables of R71, R73, R79, R81. -/

theorem test_decode_atk : decodeWord 0b00000000000000000000000000000001 = .ok (.ditherAtk false) := by decide
theorem test_decode_fs : decodeWord 0b00000000000000000000000000010011 = .ok (.ditherFs true) := by decide
theorem test_decode_jjn : decodeWord 0b00000000000000000000000000100001 = .ok (.ditherJjn false) := by decide
theorem test_decode_stk : decodeWord 0b00000000000000000000000000110011 = .ok (.ditherStk true) := by decide
theorem test_decode_bayer2 : decodeWord 0b00000000000000000000000001000001 = .ok (.ditherBayer2 false) := by decide
theorem test_decode_bayer4 : decodeWord 0b00000000000000000000000001010011 = .ok (.ditherBayer4 true) := by decide
theorem test_decode_bayer8 : decodeWord 0b00000000000000000000000001100001 = .ok (.ditherBayer8 false) := by decide
theorem test_decode_clust4 : decodeWord 0b00000000000000000000000001110011 = .ok (.ditherClust4 true) := by decide
/-- CTRL.SET ignores its other bits (R79). -/
theorem test_decode_ctrlSet : decodeWord 0b11111111111111111111111110101110 = .ok (.ctrlSet true 0b1010) := by decide
/-- Bit 2 is reserved in a command (R78). -/
theorem test_decode_reserved_low : decodeWord 0b00000000000000000000000000010101 = .error .rsvdBits := by decide
/-- Bit 31 is reserved in a command, and tested before ALGO (R78, R155). -/
theorem test_decode_reserved_high : decodeWord 0b10000000000000000000000011110001 = .error .rsvdBits := by decide
/-- Codes 8 and 15 are reserved (R73, R77). -/
theorem test_decode_code8 : decodeWord 0b00000000000000000000000010000001 = .error .badAlgo := by decide
theorem test_decode_code15 : decodeWord 0b00000000000000000000000011110011 = .error .badAlgo := by decide
theorem test_decode_bytes : decodeBytes [0x13, 0, 0, 0, 0xAA] = .ok (.ditherFs true, [0xAA]) := by decide
theorem test_decode_truncated : decodeBytes [0x13, 0, 0] = .error .truncated := by decide
theorem test_decode_table_word : decodeTableWord 32 0x61 = some (.ditherBayer8 false) := by decide

/-! One step of each command's worked example. -/

/-- R110: g = 135 at pixel 1 gives 255, and its error −120 sends −15 to pixel 2, whose g is then 120. -/
theorem test_atk_step : holds (pixelStep (runningAt .atk 1 [0, 15, 15, 0] (configured 4 1 127 [120, 120, 120, 120])))
    (fun t => channel t 1 0 == 255 && channel t 1 2 == 255 && t.errbuf == [0, 15, 0, -15] && t.progress == 2) = true := by
  decide +kernel

/-- R111: pixel 0 gives 255 with error −127; g is 72.4375 at pixel 1. -/
theorem test_fs_step : holds (pixelStep (running .fs (configured 2 2 127 [128, 128, 128, 128])))
    (fun t => channel t 0 1 == 255 && t.errbuf == [0, -889 / 16, -635 / 16, -127 / 16] &&
      adjustedGray 128 (t.errAt 1) == 1159 / 16) = true := by
  decide +kernel

/-- R111: at pixel 1, g = 250 + 43.75 is clamped to 255, so the error is 0. -/
theorem test_fs_clamp : holds (pixelStep (runningAt .fs 1 [0, 175 / 4] (configured 2 2 127 [100, 250, 0, 0])))
    (fun t => channel t 1 0 == 255 && channel t 1 3 == 255 && t.errbuf == [0, 175 / 4]) = true := by
  decide +kernel

/-- R112: g is 114.58333333333333 at pixel 1. -/
theorem test_jjn_step : holds (pixelStep (running .jjn (configured 3 1 127 [100, 100, 100])))
    (fun t => channel t 0 0 == 0 && adjustedGray 100 (t.errAt 1) == mkRat 8063085270357333 (2 ^ 46)) = true := by
  decide +kernel

/-- R113: g is 119.04761904761905 at pixel 1. -/
theorem test_stk_step : holds (pixelStep (running .stk (configured 3 1 127 [100, 100, 100])))
    (fun t => channel t 0 0 == 0 && adjustedGray 100 (t.errAt 1) == mkRat 8377231449721905 (2 ^ 46)) = true := by
  decide +kernel

/-- R129, C3: pixel (1, 0) has mv = 2 and is white. -/
theorem test_bayer2_step : holds (pixelStep (runningAt .bayer2 1 [] (configured 2 2 150 [100, 200, 100, 200])))
    (fun t => channel t 1 0 == 255 && channel t 1 3 == 255 && channel t 0 0 == 100) = true := by
  decide +kernel

/-- R130: pixel 1 has mv = 8 and is black. -/
theorem test_bayer4_step : holds (pixelStep (runningAt .bayer4 1 [] (configured 4 1 127 [128, 128, 128, 128])))
    (fun t => channel t 1 1 == 0 && channel t 1 3 == 255) = true := by
  decide +kernel

/-- R131: pixel 1 has mv = 32 and is black. -/
theorem test_bayer8_step : holds (pixelStep (runningAt .bayer8 1 [] (configured 8 1 127 [128, 128, 128, 128])))
    (fun t => channel t 1 2 == 0) = true := by
  decide +kernel

/-- R132: pixel 0 has mv = 12 and is black. -/
theorem test_clust4_step : holds (pixelStep (running .clust4 (configured 4 4 127 [128, 128, 128, 128])))
    (fun t => channel t 0 0 == 0 && t.scanP == 1) = true := by
  decide +kernel

/-- R142, R165: CTRL.SET raises the interrupt while DONE is 1. -/
theorem test_ctrlSet_irq : holds (exec (.ctrlSet true 9) { configured 2 2 127 [] with done := true })
    (fun t => t.irq && t.algo == 9 && t.done && !t.busy) = true := by
  decide

/-- R141, R162: BAD_DIM is reported before BAD_ALIGN; ERR is 1 and the interrupt follows IRQ_EN. -/
theorem test_reject_order : holds (exec (.ditherJjn true) { configured 0 2 127 [] with bufBase := 1 })
    (fun t => t.statusWord == 0x00000304 && t.irq && t.ctrlWord == 0x00000022) = true := by
  decide

/-- R161: a write error leaves each byte old or new; FAULT_ADDR names the pixel. -/
theorem test_write_error : holds
    (pixelStep { runningAt .bayer4 1 [] (configured 4 1 127 [128, 128]) with busAnswers := [.ok, .error true false true] })
    (fun t => channel t 1 0 == 0 && channel t 1 1 == 128 && channel t 1 2 == 0 && t.statusWord == 0x00000704 &&
      t.faultAddr == 0x104 && t.progress == 1) = true := by
  decide +kernel

/-- R135, R20: a CTRL read. -/
theorem test_ctrl_read : holds (step { configured 2 2 127 [] with algo := 0xF, irqEn := true, inputs := [.access (.rd .word 0x0C)] })
    (fun t => t.resp == .data 0x000000F2) = true := by
  decide

/-! States that meet the hypotheses of the statements. -/

/-- An image of one white pixel. -/
def single : State := configured 1 1 127 [255]

/-- A block whose buffer is the last pixel of memory. -/
def atTop : State := { configured 1 1 127 [] with bufBase := 0xFFFFFFFC }

/-- A block whose next event is a write of `d` to CTRL. -/
def sent (d : Word) (s : State) : State := { s with inputs := [.access (.wr .word 0x0C d)] }

/-- A platform without coherent memory. -/
def incoherent : State := { single with params := { platform with coherent := false } }

theorem witness_DecodeEncodeRoundTrip : (Instr.ctrlSet true 15).wellFormed = true := by decide

theorem witness_StepRunsDecodedInstruction :
    (sent 0x13 single).inputs = .access (.wr .word 0x0C 0x13) :: [] ∧ decodeWord 0x13 = .ok (.ditherFs true) := by decide

theorem witness_IllegalWordIsRejected :
    (sent 0x05 single).inputs = .access (.wr .word 0x0C 0x05) :: [] ∧ single.busy = false ∧ (0x05 : Word).getLsbD 0 = true ∧
    (0x05 : Word).extractLsb' 2 2 ≠ 0 ∧ (0x80000001 : Word).extractLsb' 8 24 ≠ 0 ∧
    (0x81 : Word).extractLsb' 2 2 = 0 ∧ (0x81 : Word).extractLsb' 8 24 = 0 ∧ 8 ≤ ((0x81 : Word).extractLsb' 4 4).toNat := by decide

theorem witness_accepted : single.busy = false ∧ ArgsPass single ∧ single.bufferOrdinary = true := by
  unfold ArgsPass; decide

theorem witness_accepted_at_top : atTop.busy = false ∧ ArgsPass atTop ∧ atTop.bufferOrdinary = true := by
  unfold ArgsPass; decide

theorem witness_AcceptedOverNoMemoryIsMarked :
    let s := { single with bufBase := 0xF000003C }
    s.busy = false ∧ ArgsPass s ∧ s.bufferOrdinary = false := by
  unfold ArgsPass; decide

/-- Each check of an issue, at a boundary where it is the first to fail. -/
theorem witness_CommandRejectedByFirstFailingCheck :
    let dimFails (s : State) : Prop := s.width.toNat = 0 ∨ s.params.maxWidth.toNat < s.width.toNat ∨ s.height.toNat = 0 ∨
      s.params.maxHeight.toNat < s.height.toNat
    let lenFails (s : State) : Prop := s.bufLen.toNat ≠ s.width.toNat * s.height.toNat * 4
    let dim := configured 4097 1 127 []
    let len := { configured 4096 1 127 [] with bufLen := 16383 }
    let align := { configured 1 65535 127 [] with bufBase := 2 }
    let range := { configured 2 1 127 [] with bufBase := 0xFFFFFFFC }
    (dim.busy = false ∧ dimFails dim) ∧ (len.busy = false ∧ ¬dimFails len ∧ lenFails len) ∧
    (align.busy = false ∧ ¬dimFails align ∧ ¬lenFails align ∧ align.bufBase.toNat % 4 ≠ 0) ∧
    (range.busy = false ∧ ¬dimFails range ∧ ¬lenFails range ∧ ¬range.bufBase.toNat % 4 ≠ 0 ∧
      2 ^ 32 < range.bufBase.toNat + range.bufLen.toNat) := by
  decide

theorem witness_BusyIgnoresCtrlWrites :
    (sent 0x13 (running .fs single)).inputs = .access (.wr .word 0x0C 0x13) :: [] ∧ (sent 0x13 (running .fs single)).busy = true := by
  decide

theorem witness_CtrlSetWritesItsFields :
    (sent 0xFFFFFFFE single).busy = false ∧
    (sent 0xFFFFFFFE single).inputs = .access (.wr .word 0x0C 0xFFFFFFFE) :: [] ∧ (0xFFFFFFFE : Word).getLsbD 0 = false := by decide

theorem witness_InterruptFollowsCommands : (configured 0 1 0 []).busy = false ∧ single.busy = false ∧
    (∃ t, exec (Strategy.fs.instr true) (configured 0 1 0 []) = .next t ∧ ¬ArgsPass (configured 0 1 0 [])) ∧
    (∃ t, exec (Strategy.fs.instr true) single = .next t ∧ ArgsPass single) :=
  ⟨rfl, rfl, ⟨_, rfl, by unfold ArgsPass; decide⟩, ⟨_, rfl, by unfold ArgsPass; decide⟩⟩

theorem witness_RegisterReadReturnsItsFields :
    { single with inputs := [.access (.rd .word 0x3C)] }.inputs = .access (.rd .word (regOffset .reserved3C)) :: [] := by decide

theorem witness_ConfigurationWrites :
    let e : Event := .access (.wr .word 0x24 7)
    { single with inputs := [e] }.inputs = .access (.wr .word (regOffset .bufLen) 7) :: [] ∧ single.busy = false ∧
    { running .fs single with inputs := [e] }.inputs = .access (.wr .word (regOffset .bufLen) 7) :: [] ∧
    (running .fs single).busy = true := by decide

theorem witness_StatusWriteClearsFlags :
    { single with inputs := [.access (.wr .word 0x10 6)], done := true }.inputs = .access (.wr .word 0x10 6) :: [] := by decide

theorem witness_ReadOnlyWritesIgnored :
    { single with inputs := [.access (.wr .word 0x30 6)] }.inputs = .access (.wr .word (regOffset .maxDim) 6) :: [] ∧
    RegName.maxDim ∈ [RegName.id, .version, .caps, .progress, .faultAddr, .maxDim] := by decide

theorem witness_ReservedOffsetsReadZero :
    { single with inputs := [.access (.rd .word 0x3C)] }.inputs = .access (.rd .word 0x3C) :: [] ∧
    { single with inputs := [.access (.wr .word 0x34 6)] }.inputs = .access (.wr .word 0x34 6) :: [] := by decide

/-- The three ways an access is illegal, each at its boundary. -/
theorem witness_IllegalAccessGetsErrorResponse :
    Size.half ≠ .word ∧ (0x3D : Word).toNat % 4 ≠ 0 ∧ 0x40 ≤ (0x40 : Word).toNat ∧
    { single with inputs := [.access (.rd .half 0x10)] }.inputs = .access (.rd .half 0x10) :: [] := by decide

theorem witness_ResetInputRestoresTheBlock :
    { running .fs single with inputs := [.reset] }.inputs = .reset :: [] := by decide

theorem witness_RoundingIsToNearest : |(1 / 3 : Rat)| ≤ 2 ^ 1023 ∧ |(-2 ^ 1023 : Rat)| ≤ 2 ^ 1023 := by
  constructor
  · rw [abs_of_nonneg (by norm_num)]
    exact le_trans (by norm_num) (one_le_pow₀ (by norm_num))
  · rw [abs_neg, abs_of_nonneg (by positivity)]

theorem witness_SmallIntegersAreExact : |(2 ^ 53 - 1 : Int)| < 2 ^ 53 := by decide

/-- The least and the greatest subnormal tie, the least normal one, the significand 2^53−1, and the greatest exponent. -/
theorem witness_HalfwayRoundsToEven : ∀ p ∈ [((0 : Nat), (-1074 : Int)), (2 ^ 52 - 1, -1074), (2 ^ 52, -1074), (2 ^ 53 - 1, 970),
    (2 ^ 53 - 2, 971)], -1074 ≤ p.2 ∧ p.2 ≤ 971 ∧ p.1 < 2 ^ 53 ∧ (2 ^ 52 ≤ p.1 ∨ p.2 = -1074) ∧
      ¬(p.1 = 2 ^ 53 - 1 ∧ p.2 = 971) := by decide

theorem witness_ProductFormsAgreeForDyadicKernels :
    (⟨1, 0, 7, 16⟩ : KernelEntry) ∈ kernelFs ∧ (⟨0, 2, 1, 8⟩ : KernelEntry) ∈ kernelAtk ∧
    (2 : Rat) ^ (-1022 : Int) ≤ |(128 : Rat) * (7 : Nat) / (16 : Nat)| := by
  refine ⟨by decide, by decide, le_trans (zpow_le_one_of_nonpos₀ (by norm_num) (by norm_num)) ?_⟩
  rw [abs_of_nonneg (by positivity)]
  norm_num

theorem witness_MatricesArePermutations : isDiffusion .bayer2 = false ∧ isDiffusion .clust4 = false := by decide

/-- No tie, a tie that rounds down, and a tie that rounds up (R92). -/
theorem witness_LuminanceIntegerForm :
    (299 * 100 + 587 * 100 + 114 * 100) % 1000 ≠ 500 ∧ (587 * 36 + 114 * 12) % 1000 = 500 ∧ (114 * 250) % 1000 = 500 := by decide

theorem witness_DiffusionThresholdExtremes : (-1 : F64) < 0 ∧ (255 : F64) ≤ 255 := by decide

theorem witness_OrderedIntegerForm : isDiffusion .bayer8 = false ∧ 255 ≤ 255 := by decide

theorem witness_KernelReachesOnlyLaterPixels :
    (⟨-2, 1, 3, 48⟩ : KernelEntry) ∈ kernelOf .jjn ∧ 2 < 3 ∧ neighbour 3 2 2 0 ⟨-2, 1, 3, 48⟩ = some 3 := by decide

/-- A diffusion run and an ordered run over two pixels. -/
theorem witness_DiffusionPixelStep :
    let s := running .fs (configured 2 1 127 [128, 128])
    s.fsm = .run ∧ isDiffusion s.lat.strategy = true ∧ s.marked = false ∧ s.mem.wf = true ∧ s.scanP + 1 < s.lat.pixels ∧
    s.errbuf.length = s.lat.pixels ∧ s.lat.base.toNat + 4 * s.lat.pixels ≤ 2 ^ 32 ∧ s.busAnswers = .ok :: .ok :: [.ok, .ok] := by
  decide

theorem witness_OrderedPixelStep :
    let s := running .bayer8 (configured 2 1 127 [128, 128])
    s.fsm = .run ∧ isDiffusion s.lat.strategy = false ∧ s.marked = false ∧ s.mem.wf = true ∧ s.scanP + 1 < s.lat.pixels ∧
    s.lat.base.toNat + 4 * s.lat.pixels ≤ 2 ^ 32 ∧ s.busAnswers = .ok :: .ok :: [.ok, .ok] := by
  decide

theorem witness_LastPixelCompletes :
    let s := running .fs single
    s.fsm = .run ∧ s.scanP + 1 = s.lat.pixels ∧ s.lat.base.toNat + 4 * s.lat.pixels ≤ 2 ^ 32 ∧
    s.busAnswers = .ok :: .ok :: [.ok, .ok] := by
  decide

/-- A run over the last pixel of memory whose accesses get error responses. -/
theorem witness_ReadErrorAborts :
    let s := { running .fs atTop with busAnswers := [.error true false true] }
    s.fsm = .run ∧ s.scanP < s.lat.pixels ∧ s.lat.base.toNat + 4 * s.lat.pixels ≤ 2 ^ 32 ∧
    s.busAnswers = .error true false true :: [] := by
  decide

theorem witness_WriteErrorAborts :
    let s := { running .fs atTop with busAnswers := [.ok, .error true false true] }
    s.fsm = .run ∧ s.scanP < s.lat.pixels ∧ s.marked = false ∧ s.mem.wf = true ∧
    s.lat.base.toNat + 4 * s.lat.pixels ≤ 2 ^ 32 ∧ s.busAnswers = .ok :: .error true false true :: [] := by
  decide

/-- A run that has just started meets the invariant, whichever its family. -/
theorem witness_invariant (a : Strategy) : StateInv (running a single) where
  params_wf := by cases a <;> decide
  mem_wf := by cases a <;> decide
  flags :=
    { busy_iff_run := by cases a <;> decide
      busy_clean := by cases a <;> decide
      done_not_err := by cases a <;> decide
      err_iff_code := by cases a <;> decide }
  running := fun _ =>
    { latched := by cases a <;> decide
      algo_latched := by cases a <;> decide
      args_pass := by cases a <;> decide
      scan_inside := by cases a <;> decide
      progress_scan := by cases a <;> decide
      errbuf_length := by cases a <;> decide }
  scan_bound := by cases a <;> decide

/-- A run whose host sends a command word while it is in progress. -/
theorem witness_HostAccessesLeaveARunAlone :
    let s := sent 0x13 (running .fs single)
    StateInv s ∧ s.busy = true ∧ s.inputs = .access (.wr .word 0x0C 0x13) :: [] := by
  have h := witness_invariant .fs
  exact ⟨⟨h.params_wf, h.mem_wf, ⟨h.flags.1, h.flags.2, h.flags.3, h.flags.4⟩,
    fun hr => ⟨(h.running hr).1, (h.running hr).2, (h.running hr).3, (h.running hr).4, (h.running hr).5, (h.running hr).6⟩,
    h.scan_bound⟩, by decide, by decide⟩

/-- The premises of the statements about a run of the machine. -/
theorem witness_runStart (a : Strategy) : RunStart (running a single) where
  inv := witness_invariant a
  running := by cases a <;> decide
  first := by cases a <;> decide
  no_fault_addr := by cases a <;> decide
  unmarked := by cases a <;> decide
  errbuf_zero := by cases a <;> decide

/-- A host about to send a Floyd–Steinberg command over a block configured so, with no other move to come. DONE, ERR, ERRCODE, PROGRESS
and FAULT_ADDR hold what no claim may rest on (R183, R186), values that no run leaves together. -/
def launch (s : State) : State :=
  sent (commandWord .fs true) { s with done := true, err := true, errcode := .none, progress := 5, faultAddr := 9 }

/-- With no input left, a run sees no input. -/
theorem whileRunning_inputs_nil {s t : State} (hs : s.inputs = []) (h : WhileRunning s t) : t.inputs = [] := by
  induction h with
  | start _ => exact hs
  | next _ hstep _ ih =>
    rw [step_nil ih] at hstep
    rw [pixelStep_inputs hstep, ih]

/-- A launch whose only move is its CTRL write is undisturbed. -/
theorem undisturbed_of_last {s₀ : State} (h : holds (step s₀) (fun t => t.inputs == []) = true) :
    ∀ s t a, IssuesCommand s₀ s → WhileRunning s t → t.foreignAddr = some a → s₀.inDeclared a = false := by
  intro s t a hs ht ha
  obtain ⟨s', h1, h2⟩ := exists_of_holds h
  have h3 := hs.2.2
  rw [h1] at h3
  cases h3
  have h4 := whileRunning_inputs_nil (by simpa using h2) ht
  simp [State.foreignAddr, h4] at ha

theorem launch_wf : LaunchWf (launch single) := ⟨by decide, by decide⟩

theorem launch_clean : CleanLaunch (launch single) :=
  ⟨by decide, by decide, by decide, by decide, undisturbed_of_last (by decide), by decide⟩

/-- A clean launch whose operands pass. -/
theorem witness_CleanLaunchStartsARun : LaunchWf (launch single) ∧ CleanLaunch (launch single) ∧ ArgsPass (launch single) ∧
    (launch single).inputs = ctrlEvent (commandWord .fs true) :: [] :=
  ⟨launch_wf, launch_clean, by unfold ArgsPass; decide, by decide⟩

/-- A clean launch whose command is accepted, a state of its run, and the end of it. -/
theorem witness_CleanRunIsTheEnginesAlone : LaunchWf (launch single) ∧ CleanLaunch (launch single) ∧
    ∃ s s₁, IssuesCommand (launch single) s ∧ WhileRunning s s ∧ RunEnd (launch single) s₁ := by
  obtain ⟨s, h1, h2⟩ := exists_of_holds (o := step (launch single))
    (p := fun t => t.fsm == .run && t.inputs == [] && holds (step t) (fun u => u.fsm == .idle)) (by decide +kernel)
  simp only [Bool.and_eq_true, beq_iff_eq] at h2
  obtain ⟨⟨h3, h4⟩, h5⟩ := h2
  obtain ⟨s₁, h6, h7⟩ := exists_of_holds h5
  have hs : IssuesCommand (launch single) s := ⟨by decide, ⟨_, _, rfl, by decide⟩, h1⟩
  exact ⟨launch_wf, launch_clean, s, s₁, hs, .start h3, s, s, hs, .start h3, by simp [h4], h6, by simpa using h7⟩

/-- A clean launch whose command is rejected: the block is not configured. -/
theorem witness_CleanRunIsTheEnginesAlone_rejected :
    let s₀ := launch (configured 0 1 127 [])
    LaunchWf s₀ ∧ CleanLaunch s₀ ∧ ∃ s, IssuesCommand s₀ s ∧ s.fsm = .idle := by
  refine ⟨⟨by decide, by decide⟩, ⟨by decide, by decide, by decide, by decide, undisturbed_of_last (by decide), by decide⟩, ?_⟩
  obtain ⟨s, h1, h2⟩ := exists_of_holds (o := step (launch (configured 0 1 127 []))) (p := fun t => t.fsm == .idle) (by decide)
  exact ⟨s, ⟨by decide, ⟨_, _, rfl, by decide⟩, h1⟩, by simpa using h2⟩

/-- A dirty copy of a byte of the buffer is no clean launch (R61, R183). -/
theorem test_dirty_copy_is_no_clean_launch :
    ¬CleanLaunch { launch incoherent with hostCache := [⟨0x103, 7, true⟩] } := by
  intro h
  exact absurd (h.visible _ (List.mem_cons_self ..) rfl) (by decide)

/-- One ENGINE step completes that run. -/
theorem witness_run_completes_diffusion : ∃ t, engineSteps 1 (running .fs single) = .next t ∧ t.done = true :=
  exists_of_holds (p := fun t => t.done) (by decide +kernel)

theorem witness_run_completes_ordered : ∃ t, engineSteps 1 (running .bayer8 single) = .next t ∧ t.done = true :=
  exists_of_holds (p := fun t => t.done) (by decide +kernel)

theorem witness_InvariantStepsNeverStop : StateInv (running .stk single) := witness_invariant .stk

theorem witness_EveryRunEnds : StateInv (running .atk single) ∧ (running .atk single).fsm = .run ∧ (running .atk single).inputs = [] :=
  ⟨witness_invariant .atk, by decide⟩

/-- An idle ENGINE's turn, by the empty queue and by its event, and the turns of an ENGINE in a run. -/
theorem witness_EngineTurnIsItsPixelStep :
    single.fsm = .idle ∧ single.inputs = [] ∧ { single with inputs := [.engine] }.inputs = .engine :: [] ∧
    StateInv (running .fs single) ∧ (running .fs single).fsm = .run ∧ (running .fs single).inputs = [] ∧
    StateInv { running .fs single with inputs := [.engine] } ∧ { running .fs single with inputs := [.engine] }.fsm = .run ∧
    { running .fs single with inputs := [.engine] }.inputs.head? = some .engine := by
  have h := witness_invariant .fs
  exact ⟨by decide, by decide, by decide, h, by decide, by decide,
    ⟨h.params_wf, h.mem_wf, ⟨h.flags.1, h.flags.2, h.flags.3, h.flags.4⟩,
      fun hr => ⟨(h.running hr).1, (h.running hr).2, (h.running hr).3, (h.running hr).4, (h.running hr).5, (h.running hr).6⟩,
      h.scan_bound⟩, by decide, by decide⟩

theorem witness_CompleteRunIsBinary :
    ∃ t, RunStart (running .fs single) ∧ engineSteps 1 (running .fs single) = .next t ∧ t.done = true :=
  witness_run_completes_diffusion.imp fun _ h => ⟨witness_runStart .fs, h⟩

theorem witness_OrderedRunMatchesPixelwise : ∃ t, RunStart (running .bayer8 single) ∧
    isDiffusion (running .bayer8 single).lat.strategy = false ∧ engineSteps 1 (running .bayer8 single) = .next t ∧ t.done = true :=
  witness_run_completes_ordered.imp fun _ h => ⟨witness_runStart .bayer8, by decide, h⟩

theorem witness_DiffusionRunMatchesReference : ∃ t, RunStart (running .fs single) ∧
    isDiffusion (running .fs single).lat.strategy = true ∧ engineSteps 1 (running .fs single) = .next t ∧ t.done = true :=
  witness_run_completes_diffusion.imp fun _ h => ⟨witness_runStart .fs, by decide, h⟩

/-- The same pixel, with another byte in memory outside the buffer. -/
def singleToo : State := { single with resp := .written, mem := single.mem.write 0x200 1 }

/-- Two complete runs over the same white pixel, whose states differ in a byte outside the buffer and in the bus answer. -/
theorem witness_SameInputsSameObservation :
    let s₁ := running .bayer8 single
    let s₂ := running .bayer8 singleToo
    s₁ ≠ s₂ ∧ RunStart s₁ ∧ RunStart s₂ ∧ s₁.lat = s₂.lat ∧ s₁.params.productForm = s₂.params.productForm ∧
    (∀ a, s₁.lat.base.toNat ≤ a → a < s₁.lat.base.toNat + 4 * s₁.lat.pixels → s₁.mem.read a = s₂.mem.read a) ∧
    (∃ t, engineSteps 1 s₁ = .next t ∧ t.done = true) ∧ (∃ t, engineSteps 1 s₂ = .next t ∧ t.done = true) := by
  refine ⟨by decide, witness_runStart .bayer8, ⟨⟨by decide, by decide, ⟨by decide, by decide, by decide, by decide⟩,
    fun _ => ⟨by decide, by decide, by decide, by decide, by decide, by decide⟩, by decide⟩, by decide, by decide, by decide,
    by decide, by decide⟩, by decide, by decide, fun a h1 h2 => ?_, witness_run_completes_ordered,
    exists_of_holds (p := fun t => t.done) (by decide +kernel)⟩
  have h3 : (running .bayer8 single).lat.base.toNat = 256 := by decide
  have h4 : (running .bayer8 single).lat.pixels = 1 := by decide
  have h5 : ∀ i, i < 4 → (running .bayer8 single).mem.read (256 + i) = (running .bayer8 singleToo).mem.read (256 + i) := by decide
  have h6 := h5 (a - 256) (by omega)
  rwa [show 256 + (a - 256) = a by omega] at h6

theorem witness_EngineWritesOnlyRgbOfItsBuffer : ∃ t, engineSteps 1 (running .bayer8 single) = .next t :=
  witness_run_completes_ordered.imp fun _ h => h.1

/-- A step from a state that meets the invariant. -/
theorem witness_StepKeepsInvariant : ∃ t, StateInv (running .fs single) ∧ step (running .fs single) = .next t :=
  (exists_of_holds (o := step (running .fs single)) (p := fun _ => true) (by decide +kernel)).imp
    fun _ h => ⟨witness_invariant .fs, h.1⟩

theorem witness_ModelFaultMarksStay :
    ∃ t, step { single with hostRace := true, bufferNotMemory := true, inputs := [.reset] } = .next t := ⟨_, rfl⟩

theorem witness_ParametersNeverChange : ∃ t, step single = .next t := ⟨_, rfl⟩

/-- A diffusion run whose step leaves it running. -/
theorem witness_ErrbufHoldsBinary64Values :
    let s := running .fs (configured 2 1 127 [128, 128])
    StateInv s ∧ s.fsm = .run ∧ isDiffusion s.lat.strategy = true ∧ (∀ v ∈ s.errbuf, isF64 v = true) ∧
    ∃ t, step s = .next t ∧ t.fsm = .run :=
  ⟨⟨by decide, by decide, ⟨by decide, by decide, by decide, by decide⟩,
      fun _ => ⟨by decide, by decide, by decide, by decide, by decide, by decide⟩, by decide⟩,
    by decide, by decide, by decide +kernel, by
    obtain ⟨t, h1, h2⟩ := exists_of_holds (o := step (running .fs (configured 2 1 127 [128, 128])))
      (p := fun t => t.fsm == .run) (by decide +kernel)
    exact ⟨t, h1, by simpa using h2⟩⟩

/-- A run over an image of one white pixel, with T = 127. -/
theorem witness_DiffusionFixesBinaryImages :
    let s := running .fs single
    RunStart s ∧ isDiffusion s.lat.strategy = true ∧ 0 ≤ s.lat.t ∧ s.lat.t ≤ 254 ∧
    (∀ p, p < s.lat.pixels → BinaryPixel s.mem s.lat p) ∧ ∃ t, engineSteps 1 s = .next t ∧ t.done = true := by
  refine ⟨witness_runStart .fs, by decide, by decide +kernel, by decide +kernel, fun p hp => ?_, witness_run_completes_diffusion⟩
  have h1 : (running .fs single).lat.pixels = 1 := by decide
  obtain rfl : p = 0 := by omega
  unfold BinaryPixel pixelByte
  decide

/-- The first and the last byte of a run's buffer. -/
theorem witness_BufferAccessWhileBusyIsHostRace :
    let s := { running .fs single with inputs := [.mem .host (.read 0x100), .mem .other (.write 0x103 7)] }
    s.inputs = .mem .host (.read 0x100) :: [.mem .other (.write 0x103 7)] ∧ s.busy = true ∧
    s.lat.base.toNat ≤ opAddr (.read 0x100) ∧ opAddr (.write 0x103 7) < s.lat.base.toNat + 4 * s.lat.pixels := by
  decide

theorem witness_CoherentHostSharesMemory :
    let s := { single with inputs := [.mem .host (.read 0x100)] }
    let s' := { single with inputs := [.mem .host (.write 0x100 7)] }
    s.params.coherent = true ∧ s.races (0x100 : Word).toNat = false ∧ ordinaryRange s.params (0x100 : Word).toNat 1 = true ∧
    s.mem.wf = true ∧ s.inputs = .mem .host (.read 0x100) :: [] ∧ s'.inputs = .mem .host (.write 0x100 7) :: [] := by
  decide

/-- A host write with its maintenance; and a clean copy, 7, of a byte that memory holds as 255. -/
theorem witness_HostMaintenanceMakesWritesVisible :
    let s := { incoherent with
      inputs := [.mem .host (.write 0x100 7), .clean 0x100, .discard 0x100, .mem .host (.read 0x100)] }
    let s' := { incoherent with
      hostCache := [⟨0x100, 7, false⟩]
      inputs := [.mem .host (.read 0x100), .discard 0x100, .mem .host (.read 0x100)] }
    s.params.coherent = false ∧ s.races (0x100 : Word).toNat = false ∧ ordinaryRange s.params (0x100 : Word).toNat 1 = true ∧
    s.mem.wf = true ∧
    s.inputs = .mem .host (.write 0x100 7) :: .clean 0x100 :: .discard 0x100 :: .mem .host (.read 0x100) :: [] ∧
    s'.params.coherent = false ∧ s'.races (0x100 : Word).toNat = false ∧
    ordinaryRange s'.params (0x100 : Word).toNat 1 = true ∧ s'.mem.wf = true ∧
    s'.inputs = .mem .host (.read 0x100) :: .discard 0x100 :: .mem .host (.read 0x100) :: [] ∧
    findCopy (0x100 : Word).toNat s'.hostCache = some ⟨0x100, 7, false⟩ ∧ s'.mem.read (0x100 : Word).toNat = 255 := by
  decide

end Sys2Proof.Tests
end

/-! PROOFS. rne64 of R10: the binade of a value, rounding inside it, and the statements O24, O25 and O26. -/

namespace Sys2Proof.Machine

open Sys2Proof

/-! The exponent of a value. -/

/-- A natural number lies between the powers of two of its logarithm, as rationals. -/
theorem zpow_log2_le_and_lt {n : Nat} (hn : n ≠ 0) : (2 : Rat) ^ (n.log2 : Int) ≤ n ∧ (n : Rat) < 2 ^ ((n.log2 : Int) + 1) :=
  ⟨by exact_mod_cast Nat.log2_self_le hn, by exact_mod_cast Nat.lt_log2_self⟩

/-- floor(log2(a)) of R10 is Mathlib's integer logarithm. -/
theorem floorLog2_eq_log {a : Rat} (ha : 0 < a) : floorLog2 a = Int.log 2 a := by
  have hnum : a.num.natAbs ≠ 0 := Int.natAbs_ne_zero.2 (Rat.num_pos.2 ha).ne'
  have hval : a * a.den = a.num.natAbs := by
    rw [Rat.mul_den_eq_num, ← Int.cast_natCast, Int.natAbs_of_nonneg (Rat.num_pos.2 ha).le]
  obtain ⟨hn1, hn2⟩ := zpow_log2_le_and_lt hnum
  obtain ⟨hd1, hd2⟩ := zpow_log2_le_and_lt a.den_nz
  set n : Int := (a.num.natAbs.log2 : Int)
  set d : Int := (a.den.log2 : Int)
  have hlow : (2 : Rat) ^ (n - d - 1) ≤ a := by
    have h : (2 : Rat) ^ n ≤ a * 2 ^ (d + 1) := (hn1.trans hval.ge).trans (by gcongr)
    rwa [show n = (n - d - 1) + (d + 1) by ring, zpow_add₀ two_ne_zero, mul_le_mul_iff_left₀ (by positivity)] at h
  have hhigh : a < 2 ^ (n - d + 1) := by
    have h : a * 2 ^ d < 2 ^ (n + 1) := lt_of_le_of_lt (by gcongr) (hval.trans_lt hn2)
    rwa [show n + 1 = (n - d + 1) + d by ring, zpow_add₀ two_ne_zero, mul_lt_mul_iff_left₀ (by positivity)] at h
  have hlow' : n - d - 1 ≤ Int.log 2 a := (Int.zpow_le_iff_le_log one_lt_two ha).1 (by exact_mod_cast hlow)
  have hhigh' : Int.log 2 a < n - d + 1 := (Int.lt_zpow_iff_log_lt one_lt_two ha).1 (by exact_mod_cast hhigh)
  have hmid : a < 2 ^ (n - d) ↔ Int.log 2 a < n - d := by
    exact_mod_cast Int.lt_zpow_iff_log_lt (b := 2) one_lt_two ha
  change (if a < pow2 (n - d) then n - d - 1 else n - d) = _
  simp only [pow2_eq_zpow, hmid]
  split <;> omega

/-- x×2^q is a value of the binade of scale 2^q (R10): 53 bits stand before the point of x, fewer only at the subnormal scale. -/
structure InBinade (x : Rat) (q : Int) : Prop where
  pos : 0 < x
  lt : x < 2 ^ 53
  scale_ge : -1074 ≤ q
  normal : 2 ^ 52 ≤ x ∨ q = -1074

/-- The spacing of F64 at a value of the binade of scale 2^q is 2^q (R10). -/
theorem InBinade.spacing {x : Rat} {q : Int} (h : InBinade x q) : f64Spacing (x * 2 ^ q) = 2 ^ q := by
  obtain ⟨hpos, hlt, hge, hnormal⟩ := h
  have ha : 0 < x * (2 : Rat) ^ q := by positivity
  have hhigh : Int.log 2 (x * (2 : Rat) ^ q) < 53 + q := by
    refine (Int.lt_zpow_iff_log_lt one_lt_two ha).1 ?_
    push_cast
    rw [zpow_add₀ two_ne_zero]
    gcongr
    exact_mod_cast hlt
  have hexp : f64Exponent (x * 2 ^ q) - 52 = q := by
    unfold f64Exponent
    rw [floorLog2_eq_log ha]
    rcases hnormal with hx | hq
    · have hlow : 52 + q ≤ Int.log 2 (x * (2 : Rat) ^ q) := by
        refine (Int.zpow_le_iff_le_log one_lt_two ha).1 ?_
        push_cast
        rw [zpow_add₀ two_ne_zero]
        gcongr
        exact_mod_cast hx
      omega
    · omega
  rw [f64Spacing, hexp, pow2_eq_zpow]

/-- Every positive value lies in a binade. -/
theorem exists_inBinade {v : Rat} (hv : 0 < v) : ∃ x q, InBinade x q ∧ v = x * 2 ^ q := by
  have hlow : (2 : Rat) ^ Int.log 2 v ≤ v := by exact_mod_cast Int.zpow_log_le_self one_lt_two hv
  have hhigh : v < 2 ^ (Int.log 2 v + 1) := by exact_mod_cast Int.lt_zpow_succ_log_self one_lt_two v
  set q : Int := max (Int.log 2 v) (-1022) - 52 with hq
  have hscale : (0 : Rat) < 2 ^ q := by positivity
  refine ⟨v / 2 ^ q, q, ⟨by positivity, ?_, by omega, ?_⟩, (div_mul_cancel₀ v hscale.ne').symm⟩
  · rw [div_lt_iff₀ hscale, ← zpow_natCast, ← zpow_add₀ two_ne_zero]
    exact hhigh.trans_le (zpow_le_zpow_right₀ one_le_two (by omega))
  · rcases le_or_gt (-1022) (Int.log 2 v) with hl | hl
    · left
      rw [le_div_iff₀ hscale, ← zpow_natCast, ← zpow_add₀ two_ne_zero]
      exact le_trans (zpow_le_zpow_right₀ one_le_two (by omega)) hlow
    · right
      omega

/-! Rounding. -/

/-- No integer is nearer than the nearest integer. -/
theorem abs_nearestEven_sub_le_abs_sub (x : Rat) (k : Int) : |(nearestEven x : Rat) - x| ≤ |(k : Rat) - x| := by
  have hhalf := abs_nearestEven_sub_le x
  rcases eq_or_ne k (nearestEven x) with rfl | hne
  · exact le_rfl
  · have hapart : (1 : Rat) ≤ |(k : Rat) - nearestEven x| := by
      exact_mod_cast Int.one_le_abs (sub_ne_zero.2 hne)
    have htriangle := abs_sub_le (k : Rat) x (nearestEven x)
    rw [abs_sub_comm x] at htriangle
    linarith

/-- Halfway between two integers the even one is taken. -/
theorem nearestEven_half (m : Nat) : nearestEven ((m : Rat) + 1 / 2) = if m % 2 = 0 then (m : Int) else m + 1 := by
  have hfloor : ((m : Rat) + 1 / 2).floor = m := by
    change ⌊(m : Rat) + 1 / 2⌋ = m
    rw [Int.floor_eq_iff]
    constructor <;> push_cast <;> linarith
  unfold nearestEven
  simp only [hfloor, Int.cast_natCast, add_sub_cancel_left, lt_irrefl, if_false]
  split <;> split <;> omega

/-- Rounding is symmetric about zero (R10). -/
theorem rne64_neg (v : Rat) : rne64 (-v) = -rne64 v := by
  unfold rne64
  simp only [absF64_eq_abs, abs_neg, neg_eq_zero, Left.neg_neg_iff]
  rcases lt_trichotomy v 0 with hv | rfl | hv
  · simp [hv, hv.ne, hv.le.not_gt]
  · simp
  · simp [hv, hv.ne', hv.le.not_gt]

/-- Inside a binade rounding takes the nearest integer multiple of the scale (R10). -/
theorem InBinade.rne64_eq {x : Rat} {q : Int} (h : InBinade x q) : rne64 (x * 2 ^ q) = nearestEven x * 2 ^ q := by
  have hv : 0 < x * (2 : Rat) ^ q := mul_pos h.pos (by positivity)
  have hscale : (2 : Rat) ^ q ≠ 0 := by positivity
  simp only [rne64, absF64_eq_abs, abs_of_pos hv, h.spacing, mul_div_cancel_right₀ x hscale, if_neg hv.ne',
    if_neg hv.le.not_gt]

theorem InF64.neg {v : Rat} (h : InF64 v) : InF64 (-v) := by
  rcases h with rfl | ⟨m, q, hm, hlt, hge, hle, rfl⟩
  · exact .inl neg_zero
  · exact .inr ⟨-m, q, neg_ne_zero.2 hm, by rwa [abs_neg], hge, hle, by push_cast; ring⟩

/-- Against a value of a binade, a multiple of the binade's scale does as well as any binary64 value: those below the binade are
further away than its least value, and the others are multiples themselves. -/
theorem InBinade.exists_multiple_nearer {x y : Rat} {q : Int} (h : InBinade x q) (hy : InF64 y) :
    ∃ k : Int, |(k : Rat) * 2 ^ q - x * 2 ^ q| ≤ |y - x * 2 ^ q| := by
  rcases hy with rfl | ⟨m, q', -, hm, hq', -, rfl⟩
  · exact ⟨0, by simp⟩
  · rcases le_or_gt q q' with hle | hgt
    · obtain ⟨j, rfl⟩ := Int.le.dest hle
      refine ⟨m * 2 ^ j, le_of_eq ?_⟩
      rw [zpow_add₀ two_ne_zero, zpow_natCast]
      push_cast
      ring_nf
    · have hx : 2 ^ 52 ≤ x := h.normal.resolve_right (by omega)
      have hbelow : (m : Rat) * 2 ^ q' ≤ 2 ^ 52 * 2 ^ q :=
        calc (m : Rat) * 2 ^ q' ≤ 2 ^ 53 * 2 ^ q' := by
              gcongr
              exact_mod_cast (le_abs_self m).trans hm.le
          _ = 2 ^ 52 * 2 ^ (q' + 1) := by rw [zpow_add_one₀ two_ne_zero]; ring
          _ ≤ 2 ^ 52 * 2 ^ q := by
              gcongr
              · exact one_le_two
              · omega
      have habove : (2 : Rat) ^ 52 * 2 ^ q ≤ x * 2 ^ q := by gcongr
      refine ⟨2 ^ 52, ?_⟩
      push_cast
      rw [abs_of_nonpos (by linarith), abs_of_nonpos (by linarith)]
      linarith

/-- No binary64 value is nearer to a positive value than its rounding (R10). -/
theorem rne64_nearest_of_pos {v y : Rat} (hv : 0 < v) (hy : InF64 y) : |rne64 v - v| ≤ |y - v| := by
  obtain ⟨x, q, h, rfl⟩ := exists_inBinade hv
  obtain ⟨k, hk⟩ := h.exists_multiple_nearer hy
  refine le_trans ?_ hk
  rw [h.rne64_eq, ← sub_mul, ← sub_mul, abs_mul, abs_mul]
  exact mul_le_mul_of_nonneg_right (abs_nearestEven_sub_le_abs_sub x k) (abs_nonneg _)

/-- No binary64 value is nearer to a value than its rounding (R10). -/
theorem rne64_nearest (v : Rat) {y : Rat} (hy : InF64 y) : |rne64 v - v| ≤ |y - v| := by
  rcases lt_trichotomy v 0 with hv | rfl | hv
  · have h := rne64_nearest_of_pos (neg_pos.2 hv) hy.neg
    rwa [rne64_neg, ← neg_sub', ← neg_sub', abs_neg, abs_neg] at h
  · simp
  · exact rne64_nearest_of_pos hv hy

/-- Rounding leaves a binary64 value as it is (R10). -/
theorem rne64_of_inF64 {v : Rat} (hv : InF64 v) : rne64 v = v := by
  have h := rne64_nearest v hv
  rw [sub_self, abs_zero] at h
  exact sub_eq_zero.1 (abs_nonpos_iff.1 h)

/-- The nearest integer to the significand of a value of a binade takes at most 53 bits, or is 2^53. -/
theorem InBinade.nearestEven_mem {x : Rat} {q : Int} (h : InBinade x q) : 0 ≤ nearestEven x ∧ nearestEven x ≤ 2 ^ 53 := by
  obtain ⟨hlow, hhigh⟩ := abs_le.1 (abs_nearestEven_sub_le x)
  have hpos := h.pos
  have hlt := h.lt
  have h1 : (-1 : Rat) < nearestEven x := by linarith
  have h2 : (nearestEven x : Rat) < 2 ^ 53 + 1 := by linarith
  have h1' : -1 < nearestEven x := by exact_mod_cast h1
  have h2' : nearestEven x < 2 ^ 53 + 1 := by exact_mod_cast h2
  omega

/-- Below the overflow a binade's scale is at most 2^971, and less for any but the least value of the binade (R10). -/
theorem InBinade.scale_le {x : Rat} {q : Int} (h : InBinade x q) (hle : x * 2 ^ q ≤ 2 ^ 1023) :
    q ≤ 971 ∧ (2 ^ 52 < x → q < 971) := by
  have hle' : x * (2 : Rat) ^ q ≤ 2 ^ (1023 : Int) := hle.trans_eq (zpow_ofNat 2 1023).symm
  have hscale : (2 : Rat) ^ (52 + q) = 2 ^ 52 * 2 ^ q := by rw [zpow_add₀ two_ne_zero, zpow_ofNat]
  constructor
  · rcases h.normal with hx | hsub
    · have hp : (2 : Rat) ^ (52 + q) ≤ 2 ^ (1023 : Int) := by
        rw [hscale]
        exact le_trans (by gcongr) hle'
      have := (zpow_le_zpow_iff_right₀ one_lt_two).1 hp
      omega
    · omega
  · intro hx
    have hp : (2 : Rat) ^ (52 + q) < 2 ^ (1023 : Int) := by
      rw [hscale]
      exact lt_of_lt_of_le (by gcongr) hle'
    have := (zpow_lt_zpow_iff_right₀ one_lt_two).1 hp
    omega

/-- The rounding of a positive value below the overflow is a binary64 value (R10). Where the significand rounds up to 2^53 the
result is the least value of the next binade. -/
theorem inF64_rne64_of_pos {v : Rat} (hv : 0 < v) (hle : v ≤ 2 ^ 1023) : InF64 (rne64 v) := by
  obtain ⟨x, q, h, rfl⟩ := exists_inBinade hv
  obtain ⟨hq, hq_lt⟩ := h.scale_le hle
  have hq_ge := h.scale_ge
  obtain ⟨hn0, hn1⟩ := h.nearestEven_mem
  rw [h.rne64_eq]
  rcases hn0.eq_or_lt with hzero | hpos
  · left
    rw [← hzero, Int.cast_zero, zero_mul]
  right
  rcases hn1.eq_or_lt with htop | hlt
  · have hx : 2 ^ 52 < x := by
      have hhalf := (abs_le.1 (abs_nearestEven_sub_le x)).2
      rw [htop] at hhalf
      push_cast at hhalf
      linarith
    have hq971 := hq_lt hx
    refine ⟨2 ^ 52, q + 1, by decide, by decide, by omega, by omega, ?_⟩
    rw [htop, zpow_add_one₀ two_ne_zero]
    push_cast
    ring
  · exact ⟨nearestEven x, q, hpos.ne', by rwa [abs_of_pos hpos], hq_ge, hq, rfl⟩

/-- The rounding of a value below the overflow is a binary64 value (R10). -/
theorem inF64_rne64 {v : Rat} (hle : |v| ≤ 2 ^ 1023) : InF64 (rne64 v) := by
  obtain ⟨hlow, hhigh⟩ := abs_le.1 hle
  rcases lt_trichotomy v 0 with hv | rfl | hv
  · have h := (inF64_rne64_of_pos (neg_pos.2 hv) (neg_le.1 hlow)).neg
    rwa [rne64_neg, neg_neg] at h
  · exact .inl rne64_zero
  · exact inF64_rne64_of_pos hv hhigh

/-- Settles O24: membership, nearness and fixing, each by its own lemma. -/
theorem roundingIsToNearest : Obligations.RoundingIsToNearest := fun v hv =>
  ⟨inF64_rne64 hv, fun _ hx => rne64_nearest v hx, rne64_of_inF64⟩

/-- An integer of magnitude below 2^53 is a binary64 value of scale 1 (R10). -/
theorem inF64_toF64 {n : Int} (hn : |n| < 2 ^ 53) : InF64 (toF64 n) := by
  rcases eq_or_ne n 0 with rfl | h0
  · exact .inl Int.cast_zero
  · exact .inr ⟨n, 0, h0, hn, by decide, by decide, by rw [zpow_zero, mul_one]; rfl⟩

/-- Settles O25: such an integer is a binary64 value, which rounding leaves as it is. -/
theorem smallIntegersAreExact : Obligations.SmallIntegersAreExact := fun _ hn =>
  ⟨rne64_of_inF64 (inF64_toF64 hn), inF64_toF64 hn⟩

/-- Settles O26: the tie lies in the binade of scale 2^q, where rounding takes the nearest even integer; the negative tie by
symmetry. The model's rne64 does not overflow, so the bounds on the exponent from above are not needed. -/
theorem halfwayRoundsToEven : Obligations.HalfwayRoundsToEven := by
  intro m q hq _ hm hnormal _ tie even
  have hm' : (m : Rat) + 1 ≤ 2 ^ 53 := by exact_mod_cast hm
  have htie : InBinade ((m : Rat) + 1 / 2) q :=
    { pos := by positivity
      lt := by linarith
      scale_ge := hq
      normal := hnormal.imp_left fun h => by
        have h' : (2 : Rat) ^ 52 ≤ m := by exact_mod_cast h
        linarith }
  have hpos : rne64 tie = even := by
    simp only [tie, even, htie.rne64_eq, nearestEven_half]
    split <;> push_cast <;> rfl
  exact ⟨hpos, by rw [rne64_neg, hpos]⟩

end Sys2Proof.Machine

/-! PROOFS. What the moves of the agents leave unchanged: the parameters under every step (O47), and all but one byte and the
answer under the accesses of a coherent host (O59). -/

namespace Sys2Proof.Machine

open Sys2Proof

/-! The parameters. -/

/-- Does an outcome leave these parameters in the next state, where it answers one (R40)? -/
def KeepsParams (c : Params) (o : Out) : Prop := ∀ t, o = .next t → t.params = c

@[simp] theorem keepsParams_next (c : Params) (t : State) : KeepsParams c (.next t) ↔ t.params = c := by
  simp [KeepsParams]

@[simp] theorem keepsParams_fault (c : Params) (f : Fault) : KeepsParams c (.fault f) := by
  simp [KeepsParams]

@[simp] theorem accept_params (a : Strategy) (s : State) : (s.accept a).params = s.params := by
  rcases accept_cases a s with ⟨-, h⟩ | ⟨-, h⟩ <;> simp [h]

@[simp] theorem writeStatus_params (d : Word) (s : State) : (s.writeStatus d).params = s.params := by
  rw [writeStatus_eq]

@[simp] theorem regWrite_params (r : RegName) (d : Word) (s : State) : (s.regWrite r d).params = s.params := by
  cases hb : s.busy
  · obtain ⟨hw, hh, ht, hbase, hlen⟩ := regWrite_idle hb d
    cases r with
    | width => rw [hw]
    | height => rw [hh]
    | threshold => rw [ht]
    | bufBase => rw [hbase]
    | bufLen => rw [hlen]
    | status => exact writeStatus_params d s
    | id | version | caps | ctrl | progress | faultAddr | maxDim | reserved34 | reserved38 | reserved3C => rfl
  · rcases regWrite_busy hb r d with h | h <;> simp [h]

theorem issueCommand_keepsParams (a : Strategy) (irqEn : Bool) (s : State) :
    KeepsParams s.params (issueCommand a irqEn s) := by
  rcases issueCommand_cases a irqEn s with ⟨-, h⟩ | ⟨-, c, -, h⟩ | ⟨-, -, h⟩ <;> simp [h]

theorem exec_keepsParams (i : Instr) (s : State) : KeepsParams s.params (exec i s) := by
  rcases exec_cases i s with ⟨a, irqEn, -, h⟩ | ⟨irqEn, algo, -, h⟩ <;> rw [h]
  · exact issueCommand_keepsParams a irqEn s
  · rcases execCtrlSet_cases irqEn algo s with ⟨-, h'⟩ | ⟨-, h'⟩ <;> simp [h']

theorem ctrlStep_keepsParams (d : Word) (s : State) : KeepsParams s.params (ctrlStep d s) := by
  rcases ctrlStep_cases d s with ⟨i, -, h⟩ | ⟨e, -, h⟩ <;> rw [h]
  · exact exec_keepsParams i (s.respond .written)
  · rcases issueIllegal_cases d e (s.respond .written) with ⟨-, h'⟩ | ⟨-, h'⟩ <;> simp [h']

theorem accessStep_keepsParams (a : Access) (s : State) : KeepsParams s.params (accessStep a s) := by
  rcases accessStep_cases a s with ⟨d, -, h⟩ | ⟨r, h⟩ | ⟨r, d, h⟩ <;> rw [h]
  · exact ctrlStep_keepsParams d s
  · simp
  · simp

@[simp] theorem readMem_params (who : Requester) (a : Nat) (s : State) : (readMem who a s).params = s.params := by
  obtain ⟨cs, b, h⟩ := readMem_cases who a s
  rw [h]

@[simp] theorem writeMem_params (who : Requester) (a : Nat) (b : Byte) (s : State) :
    (writeMem who a b s).params = s.params := by
  rcases writeMem_cases who a b s with ⟨cs, h⟩ | h <;> rw [h]

theorem memAccess_keepsParams (who : Requester) (op : MemOp) (s : State) : KeepsParams s.params (memAccess who op s) := by
  rcases memAccess_cases who op s with
    ⟨-, h⟩ | ⟨-, -, h⟩ | ⟨-, -, -, h⟩ | ⟨-, -, -, ⟨a, -, h⟩ | ⟨a, b, -, h⟩⟩ <;> simp [h]

@[simp] theorem cleanCopy_params (a : Nat) (s : State) : (cleanCopy a s).params = s.params := by
  rcases cleanCopy_cases a s with h | ⟨-, h⟩ | ⟨-, b, cs, h⟩ <;> simp [h]

@[simp] theorem discardCopy_params (a : Nat) (s : State) : (discardCopy a s).params = s.params := by
  obtain ⟨cs, h⟩ := discardCopy_cases a s
  rw [h]

/-- The state a pixel's computation leaves, whether it failed or not (R145). -/
def PixelResult.state : PixelResult → State
  | .ok s => s
  | .fail _ s => s

@[simp] theorem finishPixel_params (p : Nat) (r : PixelResult) : (finishPixel p r).params = r.state.params := by
  cases r with
  | ok s =>
    simp only [finishPixel, PixelResult.state]
    split <;> simp
  | fail addr s => exact State.abort_params s addr

@[simp] theorem computePixel_params (p : Nat) (s : State) : (computePixel p s).state.params = s.params := by
  rcases computePixel_cases p s with ⟨x, y, z, -, h⟩ | ⟨-, x, y, z, -, h⟩ | ⟨-, -, h⟩ <;> rw [h]
  · exact State.dropAnswer_params s
  · exact wrotePixel_params p x y z s
  · simp only [PixelResult.state]
    split <;> simp

theorem pixelStep_keepsParams (s : State) : KeepsParams s.params (pixelStep s) := by
  rcases pixelStep_cases s with ⟨-, h⟩ | ⟨-, -, h⟩ | ⟨-, -, h⟩ <;> simp [h]

/-- No agent's move changes the parameters (R40). -/
theorem eventStep_keepsParams (e : Event) (s : State) : KeepsParams s.params (eventStep e s) := by
  cases e with
  | access a => exact accessStep_keepsParams a s
  | mem who op => exact memAccess_keepsParams who op s
  | clean a => exact (keepsParams_next ..).2 (cleanCopy_params a.toNat s)
  | discard a => exact (keepsParams_next ..).2 (discardCopy_params a.toNat s)
  | engine => exact pixelStep_keepsParams s
  | reset => exact (keepsParams_next ..).2 (State.resetInput_params s)

/-- Settles O47, by the agent that moves. -/
theorem parametersNeverChange : Obligations.ParametersNeverChange := by
  intro s t h
  cases hi : s.inputs with
  | nil => exact pixelStep_keepsParams s t (by rwa [step_nil hi] at h)
  | cons e rest => exact eventStep_keepsParams e (s.withInputs rest) t (by rwa [step_cons hi] at h)

/-! The accesses of a coherent host. -/

/-- An ordinary byte is neither in the register window nor in a device of the platform (R57). -/
theorem ordinaryRange_one_iff (s : State) (a : Nat) :
    ordinaryRange s.params a 1 = true ↔ s.inWindow a = false ∧ s.inDevice a = false := by
  simp [ordinaryRange, State.inWindow, State.inDevice]

section coherent
variable {s : State} {a : Word}

/-- A read of an ordinary byte that races with nothing is a read of memory (R5). -/
theorem memAccess_read_ordinary (who : Requester) (hrace : s.races a.toNat = false)
    (hord : ordinaryRange s.params a.toNat 1 = true) : memAccess who (.read a) s = .next (readMem who a.toNat s) := by
  obtain ⟨hwin, hdev⟩ := (ordinaryRange_one_iff s _).1 hord
  simp [memAccess, opAddr, hrace, hwin, hdev]

/-- A write of an ordinary byte that races with nothing is a write of memory (R5). -/
theorem memAccess_write_ordinary (who : Requester) (b : Byte) (hrace : s.races a.toNat = false)
    (hord : ordinaryRange s.params a.toNat 1 = true) : memAccess who (.write a b) s = .next (writeMem who a.toNat b s) := by
  obtain ⟨hwin, hdev⟩ := (ordinaryRange_one_iff s _).1 hord
  simp [memAccess, opAddr, hrace, hwin, hdev]

/-- On a coherent platform nobody's accesses are cached (R61). -/
theorem cached_of_coherent (h : s.params.coherent = true) (who : Requester) : s.cached who = false := by
  simp [State.cached, h]

theorem readMem_of_coherent (h : s.params.coherent = true) (who : Requester) (n : Nat) :
    readMem who n s = s.respond (.memData (s.mem.read n)) := by
  simp [readMem, cached_of_coherent h]

theorem writeMem_of_coherent (h : s.params.coherent = true) (who : Requester) (n : Nat) (b : Byte) :
    writeMem who n b s = { s with mem := s.mem.write n b, resp := .memWritten } := by
  simp [writeMem, cached_of_coherent h]

end coherent

/-- Settles O59: the read answers memory's byte, and the write is the law of memory's write. -/
theorem coherentHostSharesMemory : Obligations.CoherentHostSharesMemory := by
  intro s a b rest hcoh hrace hord hwf
  constructor
  · intro hi
    rw [step_cons hi, eventStep, memAccess_read_ordinary (s := s.withInputs rest) .host hrace hord,
      readMem_of_coherent (s := s.withInputs rest) hcoh]
    rfl
  · intro hi
    refine ⟨s.mem.write a.toNat b, ?_, fun x => Memory.read_write a.toNat x b hwf⟩
    rw [step_cons hi, eventStep, memAccess_write_ordinary (s := s.withInputs rest) .host b hrace hord,
      writeMem_of_coherent (s := s.withInputs rest) hcoh]
    rfl

end Sys2Proof.Machine

/-! PROOFS. The register window right after reset and at its reserved offsets (O14, O19), the reset input (O22), and the invariant
of reachable states: it holds after reset (O44) and every step keeps it (O45). -/

namespace Sys2Proof.Machine

open Sys2Proof

/-! The register window. -/

/-- Settles O14: each register's value is read off the reset state. -/
theorem resetRegisterValues : Obligations.ResetRegisterValues := ⟨rfl, rfl, rfl, rfl⟩

section window
variable {s : State} {r : RegName} {rest : List Event}

@[simp] theorem regRead_withInputs : (s.withInputs rest).regRead r = s.regRead r := by
  cases r <;> rfl

/-- A legal read is answered with the register's value and changes nothing but the queue (R135). -/
theorem step_regRead (h : s.inputs = .access (.rd .word (regOffset r)) :: rest) :
    step s = .next { s with inputs := rest, resp := .data (s.regRead r) } := by
  rw [step_cons h]
  simp only [eventStep, accessStep, ctrlWrite, hostAccess, legalReg_regOffset]
  rw [regRead_withInputs]
  rfl

/-- A legal write to a register other than CTRL is that register's write, and is taken by the bus (R137 to R139, R143). -/
theorem step_regWrite {d : Word} (hr : r ≠ .ctrl) (h : s.inputs = .access (.wr .word (regOffset r) d) :: rest) :
    step s = .next (((s.withInputs rest).regWrite r d).respond .written) := by
  rw [step_cons h]
  simp [eventStep, accessStep, ctrlWrite, hostAccess, hr]

end window

/-- The three reserved offsets are those of the reserved registers, which read 0 and ignore writes (R29). -/
theorem reserved_cases {offset : Word} (h : offset = 0x34 ∨ offset = 0x38 ∨ offset = 0x3C) :
    ∃ r, offset = regOffset r ∧ r ≠ .ctrl ∧ (∀ s : State, s.regRead r = 0) ∧ ∀ (s : State) d, s.regWrite r d = s := by
  rcases h with rfl | rfl | rfl
  · exact ⟨.reserved34, rfl, by decide, fun _ => rfl, fun _ _ => rfl⟩
  · exact ⟨.reserved38, rfl, by decide, fun _ => rfl, fun _ _ => rfl⟩
  · exact ⟨.reserved3C, rfl, by decide, fun _ => rfl, fun _ _ => rfl⟩

/-- Settles O19, by what a legal access does to a reserved register. -/
theorem reservedOffsetsReadZero : Obligations.ReservedOffsetsReadZero := by
  intro s offset d rest hoff
  obtain ⟨r, rfl, hctrl, hread, hwrite⟩ := reserved_cases hoff
  constructor
  · intro hi
    rw [step_regRead hi, hread]
  · intro hi
    rw [step_regWrite hctrl hi, hwrite]
    rfl

/-! The reset input. -/

/-- Settles O22: the step is the reset input's, whose fields are written down in its definition. -/
theorem resetInputRestoresTheBlock : Obligations.ResetInputRestoresTheBlock := by
  intro s rest hi
  exact ⟨(s.withInputs rest).resetInput, step_cons hi, by simp [State.irq]⟩

/-! The invariant: what its parts ask of a state without a run, and which updates do not touch it. -/

/-- Does every next state that an outcome answers satisfy a predicate? -/
def OnNext (P : State → Prop) (o : Out) : Prop := ∀ t, o = .next t → P t

@[simp] theorem onNext_next (P : State → Prop) (t : State) : OnNext P (.next t) ↔ P t := by
  simp [OnNext]

@[simp] theorem onNext_fault (P : State → Prop) (f : Fault) : OnNext P (.fault f) := by
  simp [OnNext]

/-- Without a run the invariant asks nothing of LAT, ERRBUF and PROGRESS. -/
theorem StateInv.of_idle {s : State} (hparams : s.params.wellFormed = true) (hmem : s.mem.wf = true)
    (hscan : s.scanP ≤ s.params.maxWidth.toNat * s.params.maxHeight.toNat) (hfsm : s.fsm = .idle) (hbusy : s.busy = false)
    (hone : ¬(s.done = true ∧ s.err = true)) (hcode : s.err = true ↔ s.errcode ≠ .none) : StateInv s where
  params_wf := hparams
  mem_wf := hmem
  flags :=
    { busy_iff_run := by simp [hfsm, hbusy]
      busy_clean := by simp [hbusy]
      done_not_err := hone
      err_iff_code := hcode }
  running := by simp [hfsm]
  scan_bound := hscan

/-- Settles O44: reset is a state without a run, and its flags are clear. -/
theorem resetMeetsInvariant : Obligations.ResetMeetsInvariant :=
  StateInv.of_idle (by decide) State.reset_mem_wf (Nat.zero_le _) rfl rfl (by decide) (by decide)

section invariant
variable {s : State} (h : StateInv s)
include h

theorem StateInv.idle_of_not_busy (hb : s.busy = false) : s.fsm = .idle := by
  cases hf : s.fsm with
  | idle => rfl
  | run => exact absurd (h.flags.busy_iff_run.2 hf) (by simp [hb])

/-- Memory may take any canonical value, and the marks and the model's own fields any value at all. -/
theorem StateInv.surroundings {m : Memory} (hm : m.wf = true) (race noMem : Bool) (cs : List HostCopy) (es : List Event)
    (bs : List BusAnswer) (n : Nat) (r : Response) :
    StateInv { s with
      mem := m, hostRace := race, bufferNotMemory := noMem, hostCache := cs, inputs := es, busAnswers := bs, draws := n
      resp := r } :=
  h.congr hm rfl rfl rfl rfl rfl rfl rfl rfl rfl rfl rfl rfl rfl rfl rfl rfl

theorem StateInv.withInputs (rest : List Event) : StateInv (s.withInputs rest) := h.surroundings h.mem_wf ..

theorem StateInv.respond (r : Response) : StateInv (s.respond r) := h.surroundings h.mem_wf ..

theorem StateInv.resetInput : StateInv s.resetInput :=
  .of_idle h.params_wf h.mem_wf (Nat.zero_le _) rfl rfl (by simp) (by simp)

/-! Acknowledging and configuring (R139, R143). -/

/-- Acknowledging flags clears ERR and ERRCODE together and sets nothing (R143). -/
theorem StateInv.writeStatus (d : Word) : StateInv (s.writeStatus d) := by
  obtain ⟨hparams, hmem, ⟨hrun, hclean, hone, hcode⟩, hrunning, hscan⟩ := h
  rw [writeStatus_eq]
  refine ⟨hparams, hmem, ⟨hrun, ?_, ?_, ?_⟩, fun hr => ?_, hscan⟩
  · intro hb
    simp [hclean hb]
  · simp only [Bool.and_eq_true]
    exact fun hde => hone ⟨hde.1.1, hde.2.1⟩
  · cases d.getLsbD 2 <;> simp [hcode]
  · obtain ⟨hlat, halgo, hargs, hinside, hprogress, hlength⟩ := hrunning hr
    exact ⟨hlat, halgo, hargs, hinside, hprogress, hlength⟩

/-- Without a run the configuration registers and CTRL's fields may take any value. -/
theorem StateInv.configure (hb : s.busy = false) (irqEn : Bool) (algo : BitVec 4) (w ht th base len : Word) :
    StateInv { s with
      irqEn := irqEn, algo := algo, width := w, height := ht, threshold := th, bufBase := base, bufLen := len } :=
  .of_idle h.params_wf h.mem_wf h.scan_bound (h.idle_of_not_busy hb) hb h.flags.done_not_err h.flags.err_iff_code

theorem StateInv.regWrite (r : RegName) (d : Word) : StateInv (s.regWrite r d) := by
  cases hb : s.busy
  · obtain ⟨hw, hh, ht, hbase, hlen⟩ := regWrite_idle hb d
    cases r with
    | width => rw [hw]; exact h.configure hb ..
    | height => rw [hh]; exact h.configure hb ..
    | threshold => rw [ht]; exact h.configure hb ..
    | bufBase => rw [hbase]; exact h.configure hb ..
    | bufLen => rw [hlen]; exact h.configure hb ..
    | status => exact h.writeStatus d
    | id | version | caps | ctrl | progress | faultAddr | maxDim | reserved34 | reserved38 | reserved3C => exact h
  · rcases regWrite_busy hb r d with hr | hr <;> rw [hr]
    · exact h
    · exact h.writeStatus d

/-! The issue of a command (R141, R144, R160). -/

theorem StateInv.beginIssue (hb : s.busy = false) (irqEn : Bool) (algo : BitVec 4) : StateInv (s.beginIssue irqEn algo) :=
  .of_idle h.params_wf h.mem_wf h.scan_bound (h.idle_of_not_busy hb) hb (by simp) (by simp)

/-- Taking an error ends the run, if there is one, and needs DONE = 0 (R160, R161). -/
theorem StateInv.raiseError {c : ErrCode} (hc : c ≠ .none) (hdone : s.done = false) : StateInv (s.raiseError c) :=
  .of_idle h.params_wf h.mem_wf h.scan_bound rfl rfl (by simp [hdone]) (by simp [hc])

/-- Acceptance latches operands that pass, with the flags clear and CTRL.ALGO the strategy's (R144). -/
theorem StateInv.startRun {a : Strategy} (hargs : s.argError = none) (hdone : s.done = false) (herr : s.err = false)
    (halgo : s.algo = a.code) (hprogress : s.progress = 0) : StateInv (s.startRun a) where
  params_wf := h.params_wf
  mem_wf := h.mem_wf
  flags :=
    { busy_iff_run := by simp
      busy_clean := fun _ => ⟨hdone, herr⟩
      done_not_err := h.flags.done_not_err
      err_iff_code := h.flags.err_iff_code }
  running := fun _ =>
    { latched := rfl
      algo_latched := halgo
      args_pass := hargs
      scan_inside := by
        obtain ⟨hw, -, hh, -⟩ := (badDim_eq_false s).1 ((argError_eq_none s).1 hargs).1
        exact Nat.mul_pos hw hh
      progress_scan := hprogress
      errbuf_length := fun hd => by
        have hd' : isDiffusion a = true := hd
        simp only [State.startRun_errbuf, hd', if_true, List.length_replicate]
        rfl }
  scan_bound := Nat.zero_le _

/-- A ModelFault frees the buffer of a run, which lies in memory (R45, R172). -/
theorem StateInv.recordFault (f : ModelFault) (hrun : s.fsm = .run) : StateInv (s.recordFault f) := by
  have hfill := Memory.fill_wf (f := Config.freeByte s.draws) h.mem_wf (h.running hrun).buffer_in_memory
  cases f <;> exact h.surroundings hfill ..

theorem StateInv.accept {a : Strategy} (hargs : s.argError = none) (hdone : s.done = false) (herr : s.err = false)
    (halgo : s.algo = a.code) (hprogress : s.progress = 0) : StateInv (s.accept a) := by
  have hstart := h.startRun hargs hdone herr halgo hprogress
  rcases accept_cases a s with ⟨-, ha⟩ | ⟨-, ha⟩ <;> rw [ha]
  · exact hstart
  · exact hstart.recordFault _ rfl

theorem StateInv.issueCommand (a : Strategy) (irqEn : Bool) : OnNext StateInv (issueCommand a irqEn s) := by
  rcases issueCommand_cases a irqEn s with ⟨-, hi⟩ | ⟨hb, c, hc, hi⟩ | ⟨hb, hargs, hi⟩ <;> rw [hi, onNext_next]
  · exact h
  · refine (h.beginIssue hb irqEn a.code).raiseError ?_ rfl
    rcases argError_eq_some s hc with rfl | rfl | rfl | rfl <;> decide
  · exact (h.beginIssue hb irqEn a.code).accept hargs rfl rfl rfl rfl

theorem StateInv.issueIllegal (d : Word) (e : WordError) : OnNext StateInv (issueIllegal d e s) := by
  rcases issueIllegal_cases d e s with ⟨-, hi⟩ | ⟨hb, hi⟩ <;> rw [hi, onNext_next]
  · exact h
  · exact (h.beginIssue hb _ _).raiseError (by cases e <;> decide) rfl

theorem StateInv.exec (i : Instr) : OnNext StateInv (exec i s) := by
  rcases exec_cases i s with ⟨a, irqEn, -, hi⟩ | ⟨irqEn, algo, -, hi⟩ <;> rw [hi]
  · exact h.issueCommand a irqEn
  · rcases execCtrlSet_cases irqEn algo s with ⟨-, hc⟩ | ⟨hb, hc⟩ <;> rw [hc, onNext_next]
    · exact h
    · exact h.configure hb ..

theorem StateInv.accessStep (a : Access) : OnNext StateInv (accessStep a s) := by
  rcases accessStep_cases a s with ⟨d, -, ha⟩ | ⟨r, ha⟩ | ⟨r, d, ha⟩ <;> rw [ha]
  · rcases ctrlStep_cases d s with ⟨i, -, hd⟩ | ⟨e, -, hd⟩ <;> rw [hd]
    · exact (h.respond .written).exec i
    · exact (h.respond .written).issueIllegal d e
  · exact (onNext_next ..).2 (h.respond r)
  · exact (onNext_next ..).2 ((h.regWrite r d).respond .written)

/-! Memory accesses and maintenance (R61 to R63). -/

/-- A racing access finds a run in progress (R62). -/
theorem StateInv.run_of_races {a : Nat} (hr : s.races a = true) : s.fsm = .run := by
  simp only [State.races, Bool.and_eq_true] at hr
  exact h.flags.busy_iff_run.1 hr.1

theorem StateInv.readMem (who : Requester) (a : Nat) : StateInv (readMem who a s) := by
  obtain ⟨cs, b, hr⟩ := readMem_cases who a s
  rw [hr]
  exact h.surroundings h.mem_wf ..

theorem StateInv.writeMem (who : Requester) (a : Word) (b : Byte) : StateInv (writeMem who a.toNat b s) := by
  rcases writeMem_cases who a.toNat b s with ⟨cs, hw⟩ | hw <;> rw [hw]
  · exact h.surroundings h.mem_wf ..
  · exact h.surroundings (Memory.write_wf h.mem_wf a.isLt) ..

theorem StateInv.memAccess (who : Requester) (op : MemOp) : OnNext StateInv (memAccess who op s) := by
  rcases memAccess_cases who op s with
    ⟨hrace, hm⟩ | ⟨-, -, hm⟩ | ⟨-, -, -, hm⟩ | ⟨-, -, -, ⟨a, -, hm⟩ | ⟨a, b, -, hm⟩⟩ <;> rw [hm, onNext_next]
  · exact (h.recordFault .hostRace (h.run_of_races hrace)).respond .noValue
  · exact h.respond .errorResponse
  · exact h.respond .noValue
  · exact h.readMem who a.toNat
  · exact h.writeMem who a b

theorem StateInv.cleanCopy (a : Word) : StateInv (cleanCopy a.toNat s) := by
  rcases cleanCopy_cases a.toNat s with hc | ⟨hrace, hc⟩ | ⟨-, b, cs, hc⟩ <;> rw [hc]
  · exact h
  · exact h.recordFault .hostRace (h.run_of_races hrace)
  · exact h.surroundings (Memory.write_wf h.mem_wf a.isLt) ..

theorem StateInv.discardCopy (a : Nat) : StateInv (discardCopy a s) := by
  obtain ⟨cs, hd⟩ := discardCopy_cases a s
  rw [hd]
  exact h.surroundings h.mem_wf ..

/-! The ENGINE's move (R145, R146, R161). -/

theorem StateInv.dropAnswer : StateInv s.dropAnswer := by
  unfold State.dropAnswer
  split <;> exact h.surroundings h.mem_wf ..

theorem StateInv.wrotePixel {p : Nat} (hlim : s.lat.pixelAddr p + 4 ≤ memoryLimit) (x y z : Bool) :
    StateInv (wrotePixel p x y z s) := by
  have hmem := wrotePixel_wf p x y z s h.mem_wf hlim
  apply h.congr hmem <;> simp

/-- The distribution of an error keeps the size of ERRBUF (R108). -/
theorem StateInv.diffuse (p : Nat) (e : F64) : StateInv (s.diffuse p e) := by
  apply h.congr <;> simp [h.mem_wf]

section running
variable (hrun : s.fsm = .run)
include hrun

/-- A run has neither DONE nor ERR (R30). -/
theorem StateInv.run_clean : s.done = false ∧ s.err = false :=
  h.flags.busy_clean (h.flags.busy_iff_run.2 hrun)

theorem StateInv.abort (a : Nat) : StateInv (s.abort a) := by
  obtain ⟨hdone, -⟩ := h.run_clean hrun
  refine .of_idle ?_ ?_ ?_ rfl rfl ?_ (by simp)
  · simpa using h.params_wf
  · simpa using h.mem_wf
  · simpa using h.scan_bound
  · simp [hdone]

/-- A run that has passed its next pixel has scanned no more than MAX_WIDTH×MAX_HEIGHT pixels (R16). -/
theorem StateInv.advance_scan_bound :
    (s.advance s.scanP).scanP ≤ s.params.maxWidth.toNat * s.params.maxHeight.toNat :=
  le_trans (h.running hrun).scan_inside (h.running hrun).pixels_le

/-- The scan advances inside the image, and PROGRESS with it (R145). -/
theorem StateInv.advance (hmore : s.scanP + 1 < s.lat.pixels) : StateInv (s.advance s.scanP) where
  params_wf := h.params_wf
  mem_wf := h.mem_wf
  flags := ⟨h.flags.busy_iff_run, h.flags.busy_clean, h.flags.done_not_err, h.flags.err_iff_code⟩
  running := fun _ =>
    have hr := h.running hrun
    { latched := hr.latched
      algo_latched := hr.algo_latched
      args_pass := hr.args_pass
      scan_inside := hmore
      progress_scan := rfl
      errbuf_length := hr.errbuf_length }
  scan_bound := h.advance_scan_bound hrun

/-- Completion sets DONE in a run, where ERR is 0 (R146). -/
theorem StateInv.advance_complete : StateInv (s.advance s.scanP).complete := by
  obtain ⟨-, herr⟩ := h.run_clean hrun
  have hcode := h.flags.code_none herr
  refine .of_idle ?_ ?_ ?_ rfl rfl ?_ ?_
  · simpa using h.params_wf
  · simpa using h.mem_wf
  · simpa using h.advance_scan_bound hrun
  · simp [herr]
  · simp [herr, hcode]

/-- A pixel done: the scan advances, or the run completes (R145). -/
theorem StateInv.finishPixel_ok : StateInv (finishPixel s.scanP (.ok s)) := by
  have hinside := (h.running hrun).scan_inside
  simp only [finishPixel]
  split
  · exact h.advance_complete hrun
  · exact h.advance hrun (by omega)

/-- A pixel step keeps the invariant, whether its computation fails or succeeds (R145, R161). -/
theorem StateInv.finishPixel (hlim : s.lat.pixelAddr s.scanP + 4 ≤ memoryLimit) :
    StateInv (finishPixel s.scanP (computePixel s.scanP s)) := by
  rcases computePixel_cases s.scanP s with ⟨x, y, z, -, hc⟩ | ⟨-, x, y, z, -, hc⟩ | ⟨-, -, hc⟩ <;> rw [hc]
  · exact h.dropAnswer.abort (by simpa using hrun) _
  · exact (h.wrotePixel hlim x y z).abort (by simpa using hrun) _
  · have hwrote := h.wrotePixel hlim true true true
    have hscan := wrotePixel_scanP s.scanP true true true s
    split
    · have hdone := (hwrote.diffuse s.scanP (stepError s.scanP s)).finishPixel_ok (by simpa using hrun)
      rwa [State.diffuse_scanP, hscan] at hdone
    · have hdone := hwrote.finishPixel_ok (by simpa using hrun)
      rwa [hscan] at hdone

end running

theorem StateInv.pixelStep : OnNext StateInv (pixelStep s) := by
  rcases pixelStep_cases s with ⟨-, hp⟩ | ⟨-, -, hp⟩ | ⟨hen, hlim, hp⟩ <;> rw [hp]
  · exact (onNext_next ..).2 h
  · exact onNext_fault _ _
  · have hrun : s.fsm = .run := ((engineEnabled_iff s).1 hen).1
    exact (onNext_next ..).2 (h.finishPixel hrun hlim)

/-- No agent's move breaks the invariant. -/
theorem StateInv.eventStep (e : Event) : OnNext StateInv (eventStep e s) := by
  cases e with
  | access a => exact h.accessStep a
  | mem who op => exact h.memAccess who op
  | clean a => exact (onNext_next ..).2 (h.cleanCopy a)
  | discard a => exact (onNext_next ..).2 (h.discardCopy a.toNat)
  | engine => exact h.pixelStep
  | reset => exact (onNext_next ..).2 h.resetInput

end invariant

/-- Settles O45, by the agent that moves. -/
theorem stepKeepsInvariant : Obligations.StepKeepsInvariant := by
  intro s t h hs
  cases hi : s.inputs with
  | nil => exact h.pixelStep t (by rwa [step_nil hi] at hs)
  | cons e rest => exact (h.withInputs rest).eventStep e t (by rwa [step_cons hi] at hs)

end Sys2Proof.Machine

/-! PROOFS. ERRBUF during a run: rounding gives a binary64 value whatever its argument, the moves of the host and of other agents
leave ERRBUF alone, and a pixel step only adds with rounding (O49). -/

namespace Sys2Proof.Machine

open Sys2Proof

/-! Rounding twice is rounding once. -/

/-- The nearest integer to the significand of a value of a binade is again a significand of that binade, unless it is 0 or the
least significand of the next. -/
theorem InBinade.nearestEven_cases {x : Rat} {q : Int} (h : InBinade x q) :
    nearestEven x = 0 ∨ nearestEven x = 2 ^ 53 ∨ InBinade (nearestEven x : Rat) q := by
  obtain ⟨hlow, hhigh⟩ := h.nearestEven_mem
  rcases hlow.eq_or_lt with hzero | hpos
  · exact .inl hzero.symm
  rcases hhigh.eq_or_lt with htop | hlt
  · exact .inr (.inl htop)
  refine .inr (.inr ⟨by exact_mod_cast hpos, by exact_mod_cast hlt, h.scale_ge, h.normal.imp_left fun hx => ?_⟩)
  have hnear := (abs_le.1 (abs_nearestEven_sub_le x)).1
  have habove : (2 ^ 52 - 1 : Rat) < nearestEven x := by linarith
  have habove' : (2 ^ 52 - 1 : Int) < nearestEven x := by exact_mod_cast habove
  exact_mod_cast Int.le_of_sub_one_lt habove'

/-- The least significand of a normal binade. -/
theorem inBinade_least {q : Int} (hq : -1074 ≤ q) : InBinade ((2 ^ 52 : Int) : Rat) q :=
  ⟨by norm_num, by norm_num, hq, .inl (by norm_num)⟩

/-- Rounding leaves an integer significand of a binade as it is. -/
theorem InBinade.rne64_intCast {n q : Int} (h : InBinade (n : Rat) q) : rne64 (n * 2 ^ q) = n * 2 ^ q := by
  rw [h.rne64_eq, nearestEven_intCast]

theorem rne64_rne64_of_pos {v : Rat} (hv : 0 < v) : rne64 (rne64 v) = rne64 v := by
  obtain ⟨x, q, h, rfl⟩ := exists_inBinade hv
  rw [h.rne64_eq]
  rcases h.nearestEven_cases with hzero | htop | hmid
  · simp [hzero]
  · have hq := h.scale_ge
    have hnext : ((2 ^ 53 : Int) : Rat) * 2 ^ q = ((2 ^ 52 : Int) : Rat) * 2 ^ (q + 1) := by
      rw [zpow_add_one₀ two_ne_zero]
      push_cast
      ring
    rw [htop, hnext, (inBinade_least (by omega)).rne64_intCast]
  · exact hmid.rne64_intCast

/-- Rounding leaves a rounded value as it is, however large: the model's rne64 does not overflow (log 10). -/
theorem rne64_rne64 (v : Rat) : rne64 (rne64 v) = rne64 v := by
  rcases lt_trichotomy v 0 with hv | rfl | hv
  · have h := rne64_rne64_of_pos (neg_pos.2 hv)
    rwa [rne64_neg, rne64_neg, neg_inj] at h
  · simp
  · exact rne64_rne64_of_pos hv

/-- What fadd gives is a binary64 value (R10). -/
theorem isF64_fadd (a b : F64) : isF64 (fadd a b) = true := by
  simp [isF64, fadd, rne64_rne64]

/-! The error buffer. -/

/-- Is every entry of an error buffer a binary64 value (R32)? -/
def AllF64 (buf : List F64) : Prop := ∀ v ∈ buf, isF64 v = true

theorem allF64_distributeEntry (form : ProductForm) (w h x y : Nat) (e : F64) (k : KernelEntry) {buf : List F64}
    (hbuf : AllF64 buf) : AllF64 (distributeEntry form w h x y e buf k) := by
  intro v hv
  obtain ⟨q, hq⟩ := List.mem_iff_getElem?.1 hv
  rw [getElem?_distributeEntry] at hq
  split at hq
  · obtain ⟨u, -, rfl⟩ := Option.map_eq_some_iff.1 hq
    exact isF64_fadd ..
  · exact hbuf v (List.mem_of_getElem? hq)

/-- The distribution of an error leaves binary64 values in ERRBUF (R108). -/
theorem allF64_distribute (form : ProductForm) (w h x y : Nat) (e : F64) (ks : List KernelEntry) {buf : List F64}
    (hbuf : AllF64 buf) : AllF64 (distribute form w h x y e ks buf) := by
  unfold distribute
  induction ks generalizing buf with
  | nil => exact hbuf
  | cons k ks ih => exact ih (allF64_distributeEntry form w h x y e k hbuf)

/-! The ENGINE's move. -/

/-- The computation of a pixel step leaves binary64 values in ERRBUF, whether it succeeds or fails (R104 to R108, R128). -/
theorem computePixel_allF64 (p : Nat) {s : State} (hbuf : AllF64 s.errbuf) : AllF64 (computePixel p s).state.errbuf := by
  rcases computePixel_cases p s with ⟨x, y, z, -, h⟩ | ⟨-, x, y, z, -, h⟩ | ⟨-, -, h⟩ <;>
    simp only [h, PixelResult.state]
  · rwa [State.dropAnswer_errbuf]
  · rwa [wrotePixel_errbuf]
  · split
    · rw [State.diffuse_errbuf, wrotePixel_errbuf]
      exact allF64_distribute _ _ _ _ _ _ _ hbuf
    · rwa [wrotePixel_errbuf]

/-- A pixel step that does not end the run leaves ERRBUF as the computation left it (R145). -/
theorem finishPixel_errbuf {p : Nat} {r : PixelResult} (hrun : (finishPixel p r).fsm = .run) :
    (finishPixel p r).errbuf = r.state.errbuf := by
  cases r with
  | ok s =>
    simp only [finishPixel, PixelResult.state] at hrun ⊢
    split at hrun
    · simp at hrun
    · rename_i hmore
      rw [if_neg hmore, State.advance_errbuf]
  | fail addr s => simp [finishPixel] at hrun

/-- Does a state hold binary64 values in ERRBUF, if a run is in progress? -/
def RunsOnF64 (s : State) : Prop := s.fsm = .run → AllF64 s.errbuf

theorem pixelStep_runsOnF64 {s : State} (hbuf : AllF64 s.errbuf) : OnNext RunsOnF64 (pixelStep s) := by
  rcases pixelStep_cases s with ⟨-, h⟩ | ⟨-, -, h⟩ | ⟨-, -, h⟩ <;> rw [h]
  · exact (onNext_next ..).2 fun _ => hbuf
  · exact onNext_fault _ _
  · refine (onNext_next ..).2 fun hrun => ?_
    rw [finishPixel_errbuf hrun]
    exact computePixel_allF64 _ hbuf

/-! The other agents' moves. -/

/-- Is the ERRBUF of the next state this one? -/
def KeepsErrbuf (buf : List F64) (o : Out) : Prop := OnNext (fun t => t.errbuf = buf) o

@[simp] theorem keepsErrbuf_next (buf : List F64) (t : State) : KeepsErrbuf buf (.next t) ↔ t.errbuf = buf :=
  onNext_next ..

section busy
variable {s : State} (hb : s.busy = true)
include hb

/-- While BUSY = 1 a word written to CTRL is ignored (R140). -/
theorem ctrlStep_of_busy (d : Word) : ctrlStep d s = .next (s.respond .written) := by
  rcases ctrlStep_cases d s with ⟨i, -, h⟩ | ⟨e, -, h⟩ <;> rw [h]
  · rcases exec_cases i (s.respond .written) with ⟨a, irqEn, -, h'⟩ | ⟨irqEn, algo, -, h'⟩ <;> rw [h']
    · simp [issueCommand, hb]
    · simp [execCtrlSet, hb]
  · simp [issueIllegal, hb]

theorem regWrite_errbuf_of_busy (r : RegName) (d : Word) : (s.regWrite r d).errbuf = s.errbuf := by
  rcases regWrite_busy hb r d with h | h <;> rw [h]
  rw [writeStatus_eq]

theorem accessStep_errbuf_of_busy (a : Access) : KeepsErrbuf s.errbuf (accessStep a s) := by
  rcases accessStep_cases a s with ⟨d, -, h⟩ | ⟨r, h⟩ | ⟨r, d, h⟩ <;> rw [h]
  · simp [ctrlStep_of_busy hb]
  · simp
  · simp [regWrite_errbuf_of_busy hb]

end busy

@[simp] theorem readMem_errbuf (who : Requester) (a : Nat) (s : State) : (readMem who a s).errbuf = s.errbuf := by
  obtain ⟨cs, b, h⟩ := readMem_cases who a s
  rw [h]

@[simp] theorem writeMem_errbuf (who : Requester) (a : Nat) (b : Byte) (s : State) :
    (writeMem who a b s).errbuf = s.errbuf := by
  rcases writeMem_cases who a b s with ⟨cs, h⟩ | h <;> rw [h]

theorem memAccess_errbuf (who : Requester) (op : MemOp) (s : State) : KeepsErrbuf s.errbuf (memAccess who op s) := by
  rcases memAccess_cases who op s with
    ⟨-, h⟩ | ⟨-, -, h⟩ | ⟨-, -, -, h⟩ | ⟨-, -, -, ⟨a, -, h⟩ | ⟨a, b, -, h⟩⟩ <;> simp [h]

@[simp] theorem cleanCopy_errbuf (a : Nat) (s : State) : (cleanCopy a s).errbuf = s.errbuf := by
  rcases cleanCopy_cases a s with h | ⟨-, h⟩ | ⟨-, b, cs, h⟩ <;> simp [h]

@[simp] theorem discardCopy_errbuf (a : Nat) (s : State) : (discardCopy a s).errbuf = s.errbuf := by
  obtain ⟨cs, h⟩ := discardCopy_cases a s
  rw [h]

/-- During a run the ENGINE adds with rounding, the reset input ends the run, and nobody else touches ERRBUF (R32, R179). -/
theorem eventStep_runsOnF64 {s : State} (hb : s.busy = true) (hbuf : AllF64 s.errbuf) (e : Event) :
    OnNext RunsOnF64 (eventStep e s) := by
  have keeps {o : Out} (ho : KeepsErrbuf s.errbuf o) : OnNext RunsOnF64 o := fun t ht _ => by
    rw [ho t ht]
    exact hbuf
  cases e with
  | access a => exact keeps (accessStep_errbuf_of_busy hb a)
  | mem who op => exact keeps (memAccess_errbuf who op s)
  | clean a => exact keeps ((keepsErrbuf_next ..).2 (cleanCopy_errbuf a.toNat s))
  | discard a => exact keeps ((keepsErrbuf_next ..).2 (discardCopy_errbuf a.toNat s))
  | engine => exact pixelStep_runsOnF64 hbuf
  | reset => exact (onNext_next ..).2 fun hrun => by simp at hrun

/-- Settles O49, by the agent that moves. -/
theorem errbufHoldsBinary64Values : Obligations.ErrbufHoldsBinary64Values := by
  intro s t h hrun _ hbuf hs
  have hb : s.busy = true := h.flags.busy_iff_run.2 hrun
  cases hi : s.inputs with
  | nil => exact pixelStep_runsOnF64 hbuf t (by rwa [step_nil hi] at hs)
  | cons e rest => exact eventStep_runsOnF64 (s := s.withInputs rest) hb hbuf e t (by rwa [step_cons hi] at hs)

end Sys2Proof.Machine

/-! PROOFS. Memory beside the engine: the illegal accesses (O20), the buffer that is no ordinary memory (O8), the race (O58), the
host's copies where the platform is not coherent (O60); and that no step from a state of the invariant stops (O46). -/

namespace Sys2Proof.Machine

open Sys2Proof

/-! Illegal accesses to the register window. -/

/-- An access that names no register is answered with ErrorResponse and does nothing else (R136). -/
theorem accessStep_of_no_register {size : Size} {offset : Word} (h : legalReg size offset = none) (d : Word) (s : State) :
    accessStep (.rd size offset) s = .next (s.respond .errorResponse) ∧
      accessStep (.wr size offset d) s = .next (s.respond .errorResponse) := by
  simp [accessStep, ctrlWrite, hostAccess, h]

/-- Settles O20: such an access names no register. -/
theorem illegalAccessGetsErrorResponse : Obligations.IllegalAccessGetsErrorResponse := by
  intro s size offset data rest hbad
  obtain ⟨hread, hwrite⟩ := accessStep_of_no_register (legalReg_eq_none hbad) data (s.withInputs rest)
  constructor <;> intro hi <;> rw [step_cons hi]
  · exact hread
  · exact hwrite

/-! A command over a buffer that is no ordinary memory. -/

/-- With BUSY = 0 and passing operands a command's issue is its acceptance (R141, R144). -/
theorem issueCommand_of_pass {s : State} (hb : s.busy = false) (hargs : ArgsPass s) (a : Strategy) (irqEn : Bool) :
    issueCommand a irqEn s = .next ((s.beginIssue irqEn a.code).accept a) := by
  simp [issueCommand, hb, (argsPass_iff s).1 hargs]

/-- Acceptance over a buffer that is no ordinary memory starts the run and records the mark (R57, log 12). -/
theorem accept_of_not_ordinary {s : State} (h : s.bufferOrdinary = false) (a : Strategy) :
    s.accept a = (s.startRun a).recordFault .bufferNotMemory := by
  simp [State.accept, h]

/-- With passing operands the latched buffer is the one BUF_BASE and BUF_LEN describe (R37, R158). -/
theorem ArgsPass.latched_buffer {s : State} (h : ArgsPass s) (a : Strategy) :
    (s.latched a).base = s.bufBase ∧ 4 * (s.latched a).pixels = s.bufLen.toNat := by
  obtain ⟨-, -, -, -, hlen, -, -⟩ := h
  refine ⟨rfl, ?_⟩
  rw [hlen, Nat.mul_comm]
  rfl

/-- Recording a ModelFault frees the bytes of the latched buffer and no others (R172). -/
theorem recordFault_read_outside (f : ModelFault) (s : State) {x : Nat}
    (h : x < s.lat.base.toNat ∨ s.lat.base.toNat + 4 * s.lat.pixels ≤ x) :
    (s.recordFault f).mem.read x = s.mem.read x := by
  rw [State.recordFault_mem]
  exact Memory.read_fill_outside _ _ _ _ _ h

/-- Settles O8: acceptance starts the run, and the mark frees its buffer, which is the declared one. -/
theorem acceptedOverNoMemoryIsMarked : Obligations.AcceptedOverNoMemoryIsMarked := by
  intro s a irqEn hb hargs hord
  obtain ⟨hbase, hlen⟩ := hargs.latched_buffer a
  have hout (x : Nat) (hx : x < s.bufBase.toNat ∨ s.bufBase.toNat + s.bufLen.toNat ≤ x) :
      (((s.beginIssue irqEn a.code).startRun a).recordFault .bufferNotMemory).mem.read x = s.mem.read x := by
    refine recordFault_read_outside .bufferNotMemory ((s.beginIssue irqEn a.code).startRun a) ?_
    rw [State.startRun_lat, latched_beginIssue, hbase, hlen]
    exact hx
  refine ⟨((s.beginIssue irqEn a.code).startRun a).recordFault .bufferNotMemory, ?_, ?_⟩
  · rw [exec_instr, issueCommand_of_pass hb hargs, accept_of_not_ordinary (by simpa using hord)]
  · refine ⟨by simp, by simp, State.recordFault_lat .., ?_⟩
    simpa [State.argW, State.argH] using hout

/-! A race. -/

/-- An access to a run's buffer while BUSY = 1 records HOST_RACE and is answered with no value (R62). -/
theorem memAccess_of_races {who : Requester} {op : MemOp} {s : State} (h : s.races (opAddr op) = true) :
    memAccess who op s = .next ((s.recordFault .hostRace).respond .noValue) := by
  simp [memAccess, h]

/-- Settles O58: the access races, and recording a fault touches the mark and the buffer alone. -/
theorem bufferAccessWhileBusyIsHostRace : Obligations.BufferAccessWhileBusyIsHostRace := by
  intro s who op rest hi hb hlo hhi
  have hrace : (s.withInputs rest).races (opAddr op) = true := by
    simp [State.races, Latch.inBuffer, hb, hlo, hhi]
  refine ⟨((s.withInputs rest).recordFault .hostRace).respond .noValue, ?_, ?_⟩
  · rw [step_cons hi]
    exact memAccess_of_races hrace
  · have hout (x : Nat) := recordFault_read_outside (x := x) .hostRace (s.withInputs rest)
    simpa using hout

/-! The host's copies. -/

@[simp] theorem findCopy_cons_self (a : Nat) (b : Byte) (dirty : Bool) (cs : List HostCopy) :
    findCopy a (⟨a, b, dirty⟩ :: cs) = some ⟨a, b, dirty⟩ := by
  simp [findCopy]

/-- A byte whose copies are dropped has none left. -/
@[simp] theorem findCopy_dropCopy_self (a : Nat) (cs : List HostCopy) : findCopy a (dropCopy a cs) = none := by
  induction cs with
  | nil => rfl
  | cons c cs ih =>
    by_cases hc : c.addr = a
    · simpa [dropCopy, hc] using ih
    · simpa [dropCopy, hc, findCopy] using ih

section incoherent
variable {s : State} (h : s.params.coherent = false)
include h

/-- Where the platform is not coherent the host's accesses are cached (R68). -/
theorem cached_host_of_incoherent : s.cached .host = true := by
  simp [State.cached, h]

/-- A host write becomes a dirty copy (R61, log 15). -/
theorem writeMem_host_of_incoherent (n : Nat) (b : Byte) :
    writeMem .host n b s = { s with hostCache := ⟨n, b, true⟩ :: dropCopy n s.hostCache, resp := .memWritten } := by
  simp [writeMem, cached_host_of_incoherent h]

/-- A host read of a byte it holds a copy of is answered with the copy (log 15). -/
theorem readMem_host_hit {n : Nat} {c : HostCopy} (hc : findCopy n s.hostCache = some c) :
    readMem .host n s = s.respond (.memData c.byte) := by
  simp [readMem, cached_host_of_incoherent h, hc]

/-- A host read of a byte it holds no copy of is answered with memory's byte, and makes a clean copy (log 15). -/
theorem readMem_host_miss {n : Nat} (hc : findCopy n s.hostCache = none) :
    readMem .host n s =
      { s with hostCache := ⟨n, s.mem.read n, false⟩ :: s.hostCache, resp := .memData (s.mem.read n) } := by
  simp [readMem, cached_host_of_incoherent h, hc]

end incoherent

section copies
variable {s : State} {n : Nat} {c : HostCopy} (hc : findCopy n s.hostCache = some c)
include hc

/-- Cleaning a dirty copy outside a race writes it to memory and keeps it clean (R61, log 15). -/
theorem cleanCopy_of_dirty (hd : c.dirty = true) (hrace : s.races n = false) :
    cleanCopy n s =
      { s with mem := s.mem.write n c.byte, hostCache := ⟨n, c.byte, false⟩ :: dropCopy n s.hostCache } := by
  simp [cleanCopy, hc, hd, hrace]

/-- Discarding a clean copy drops it (R63, log 15). -/
theorem discardCopy_of_clean (hd : c.dirty = false) :
    discardCopy n s = { s with hostCache := dropCopy n s.hostCache } := by
  simp [discardCopy, hc, hd]

end copies

section maintenance
variable {s : State} {a : Word} {rest : List Event}

/-- The host's write of an ordinary byte leaves memory, and makes a dirty copy. -/
theorem step_host_write {b : Byte} (hcoh : s.params.coherent = false) (hrace : s.races a.toNat = false)
    (hord : ordinaryRange s.params a.toNat 1 = true) (hi : s.inputs = .mem .host (.write a b) :: rest) :
    step s = .next { s with
      inputs := rest, hostCache := ⟨a.toNat, b, true⟩ :: dropCopy a.toNat s.hostCache, resp := .memWritten } := by
  rw [step_cons hi, eventStep, memAccess_write_ordinary (s := s.withInputs rest) .host b hrace hord,
    writeMem_host_of_incoherent (s := s.withInputs rest) hcoh]
  rfl

section read
variable (hcoh : s.params.coherent = false) (hrace : s.races a.toNat = false)
  (hord : ordinaryRange s.params a.toNat 1 = true) (hi : s.inputs = .mem .host (.read a) :: rest)
include hcoh hrace hord hi

/-- The host's read of an ordinary byte it holds a copy of is answered with the copy. -/
theorem step_host_read_hit {c : HostCopy} (hc : findCopy a.toNat s.hostCache = some c) :
    step s = .next { s with inputs := rest, resp := .memData c.byte } := by
  rw [step_cons hi, eventStep, memAccess_read_ordinary (s := s.withInputs rest) .host hrace hord,
    readMem_host_hit (s := s.withInputs rest) hcoh hc]
  rfl

/-- The host's read of an ordinary byte it holds no copy of is answered with memory's byte. -/
theorem step_host_read_miss (hc : findCopy a.toNat s.hostCache = none) :
    step s = .next { s with
      inputs := rest, hostCache := ⟨a.toNat, s.mem.read a.toNat, false⟩ :: s.hostCache
      resp := .memData (s.mem.read a.toNat) } := by
  rw [step_cons hi, eventStep, memAccess_read_ordinary (s := s.withInputs rest) .host hrace hord,
    readMem_host_miss (s := s.withInputs rest) hcoh hc]
  rfl

end read

/-- Cleaning a dirty copy puts it in memory. -/
theorem step_clean_dirty {c : HostCopy} (hc : findCopy a.toNat s.hostCache = some c) (hd : c.dirty = true)
    (hrace : s.races a.toNat = false) (hi : s.inputs = .clean a :: rest) :
    step s = .next { s with
      inputs := rest, mem := s.mem.write a.toNat c.byte
      hostCache := ⟨a.toNat, c.byte, false⟩ :: dropCopy a.toNat s.hostCache } := by
  rw [step_cons hi, eventStep, cleanCopy_of_dirty (s := s.withInputs rest) hc hd hrace]
  rfl

/-- Discarding a clean copy leaves memory, and no copy. -/
theorem step_discard_clean {c : HostCopy} (hc : findCopy a.toNat s.hostCache = some c) (hd : c.dirty = false)
    (hi : s.inputs = .discard a :: rest) :
    step s = .next { s with inputs := rest, hostCache := dropCopy a.toNat s.hostCache } := by
  rw [step_cons hi, eventStep, discardCopy_of_clean (s := s.withInputs rest) hc hd]
  rfl

end maintenance

/-- Settles O60, move by move: what each does to the host's copy of the byte and to memory. -/
theorem hostMaintenanceMakesWritesVisible : Obligations.HostMaintenanceMakesWritesVisible := by
  intro s a b rest hcoh hrace hord hwf
  constructor
  · intro hi
    exact ⟨_, _, _, _, step_host_write hcoh hrace hord hi, step_clean_dirty (findCopy_cons_self ..) rfl hrace rfl,
      step_discard_clean (findCopy_cons_self ..) rfl rfl,
      step_host_read_miss hcoh hrace hord rfl (findCopy_dropCopy_self ..), rfl, fun x => Memory.read_write a.toNat x b hwf, rfl, rfl,
      congrArg Response.memData (Memory.read_write_self a.toNat b hwf)⟩
  · intro hi c hc hd
    exact ⟨_, _, _, step_host_read_hit hcoh hrace hord hi hc, step_discard_clean hc hd rfl,
      step_host_read_miss hcoh hrace hord rfl (findCopy_dropCopy_self ..), rfl, rfl, rfl⟩

/-! No step stops. -/

/-- Is an outcome a next state? -/
def Answers (o : Out) : Prop := ∃ t, o = .next t

@[simp] theorem answers_next (t : State) : Answers (.next t) := ⟨t, rfl⟩

/-- Every instruction has a meaning (R80). -/
theorem exec_answers (i : Instr) (s : State) : Answers (exec i s) := by
  rcases exec_cases i s with ⟨a, irqEn, -, h⟩ | ⟨irqEn, algo, -, h⟩ <;> rw [h]
  · rcases issueCommand_cases a irqEn s with ⟨-, h'⟩ | ⟨-, c, -, h'⟩ | ⟨-, -, h'⟩ <;> simp [h']
  · rcases execCtrlSet_cases irqEn algo s with ⟨-, h'⟩ | ⟨-, h'⟩ <;> simp [h']

theorem accessStep_answers (a : Access) (s : State) : Answers (accessStep a s) := by
  rcases accessStep_cases a s with ⟨d, -, h⟩ | ⟨r, h⟩ | ⟨r, d, h⟩ <;> rw [h]
  · rcases ctrlStep_cases d s with ⟨i, -, h'⟩ | ⟨e, -, h'⟩ <;> rw [h']
    · exact exec_answers i _
    · rcases issueIllegal_cases d e (s.respond .written) with ⟨-, hi⟩ | ⟨-, hi⟩ <;> simp [hi]
  · exact answers_next _
  · exact answers_next _

theorem memAccess_answers (who : Requester) (op : MemOp) (s : State) : Answers (memAccess who op s) := by
  rcases memAccess_cases who op s with
    ⟨-, h⟩ | ⟨-, -, h⟩ | ⟨-, -, -, h⟩ | ⟨-, -, -, ⟨a, -, h⟩ | ⟨a, b, -, h⟩⟩ <;> simp [h]

/-- A run's next pixel lies in memory, so that its pixel step is no access beyond it (R45, R56). -/
theorem RunInv.pixel_in_memory {s : State} (h : RunInv s) : s.lat.pixelAddr s.scanP + 4 ≤ memoryLimit := by
  have hbuffer := h.buffer_in_memory
  have hscan := h.scan_inside
  unfold Latch.pixelAddr
  omega

theorem StateInv.pixelStep_answers {s : State} (h : StateInv s) : Answers (Machine.pixelStep s) := by
  rcases pixelStep_cases s with ⟨-, hp⟩ | ⟨hen, hbeyond, -⟩ | ⟨-, -, hp⟩
  · simp [hp]
  · have hin := (h.running ((engineEnabled_iff s).1 hen).1).pixel_in_memory
    omega
  · simp [hp]

theorem StateInv.eventStep_answers {s : State} (h : StateInv s) (e : Event) : Answers (Machine.eventStep e s) := by
  cases e with
  | access a => exact accessStep_answers a s
  | mem who op => exact memAccess_answers who op s
  | clean a => exact answers_next _
  | discard a => exact answers_next _
  | engine => exact h.pixelStep_answers
  | reset => exact answers_next _

/-- Settles O46, by the agent that moves: only the ENGINE could stop, and the invariant keeps its pixel in memory. -/
theorem invariantStepsNeverStop : Obligations.InvariantStepsNeverStop := by
  intro s h
  cases hi : s.inputs with
  | nil => exact (step_nil hi).symm ▸ h.pixelStep_answers
  | cons e rest => exact (step_cons hi).symm ▸ (h.withInputs rest).eventStep_answers e

end Sys2Proof.Machine

/-! PROOFS. What the ENGINE leaves unchanged, however many steps it takes (O43). -/

namespace Sys2Proof.Machine

open Sys2Proof

/-- A state without what the ENGINE may write: memory, the scan, ERRBUF, the flags of a run, the platform's answers and the draws.
What is left is CTRL's fields, the configuration registers, LAT, the parameters, the marks, and what lies outside the block. -/
def State.besideEngine (s : State) : State :=
  { s with
    mem := [], busy := false, done := false, err := false, errcode := .none, progress := 0, faultAddr := 0, fsm := .idle
    scanP := 0, errbuf := [], busAnswers := [], draws := 0 }

/-- States that agree beside the ENGINE agree in each field it may not write. -/
theorem fields_of_besideEngine_eq {s t : State} (h : t.besideEngine = s.besideEngine) :
    t.irqEn = s.irqEn ∧ t.algo = s.algo ∧ t.width = s.width ∧ t.height = s.height ∧ t.threshold = s.threshold ∧
    t.bufBase = s.bufBase ∧ t.bufLen = s.bufLen ∧ t.lat = s.lat ∧ t.params = s.params ∧ t.inputs = s.inputs ∧
    t.hostCache = s.hostCache ∧ t.resp = s.resp ∧ t.hostRace = s.hostRace ∧ t.bufferNotMemory = s.bufferNotMemory := by
  simp only [State.besideEngine, State.mk.injEq] at h
  simp [h]

/-- Is the byte address no R, G or B byte of the run's buffer (R44, R52)? -/
def Latch.noSample (l : Latch) (a : Nat) : Prop := ∀ p c, p < l.pixels → c < 3 → a ≠ l.base.toNat + 4 * p + c

/-- What every move of the ENGINE leaves: all beside it, and every byte that is no R, G or B byte of its buffer. -/
structure EngineLeaves (s t : State) : Prop where
  beside : t.besideEngine = s.besideEngine
  bytes : ∀ a, s.lat.noSample a → t.mem.read a = s.mem.read a

theorem EngineLeaves.lat {s t : State} (h : EngineLeaves s t) : t.lat = s.lat :=
  (congrArg State.lat h.beside :)

theorem EngineLeaves.refl (s : State) : EngineLeaves s s := ⟨rfl, fun _ _ => rfl⟩

theorem EngineLeaves.trans {s t u : State} (h : EngineLeaves s t) (h' : EngineLeaves t u) : EngineLeaves s u where
  beside := h'.beside.trans h.beside
  bytes a ha := (h'.bytes a (h.lat ▸ ha)).trans (h.bytes a ha)

@[simp] theorem dropAnswer_besideEngine (s : State) : s.dropAnswer.besideEngine = s.besideEngine := by
  unfold State.dropAnswer
  split <;> rfl

@[simp] theorem useStoredBytes_besideEngine (s : State) : s.useStoredBytes.besideEngine = s.besideEngine := by
  unfold State.useStoredBytes
  split <;> rfl

@[simp] theorem releaseErrbuf_besideEngine (s : State) : s.releaseErrbuf.besideEngine = s.besideEngine := by
  unfold State.releaseErrbuf
  split <;> rfl

@[simp] theorem wrotePixel_besideEngine (p : Nat) (x y z : Bool) (s : State) :
    (wrotePixel p x y z s).besideEngine = s.besideEngine := by
  have hwrite (u : State) (a : Nat) (px : Byte × Byte × Byte) : (u.writePixel a px x y z).besideEngine = u.besideEngine := rfl
  simp [wrotePixel, hwrite]

@[simp] theorem diffuse_besideEngine (p : Nat) (e : F64) (s : State) : (s.diffuse p e).besideEngine = s.besideEngine := rfl

@[simp] theorem complete_besideEngine (s : State) : s.complete.besideEngine = s.besideEngine :=
  releaseErrbuf_besideEngine s

@[simp] theorem abort_besideEngine (a : Nat) (s : State) : (s.abort a).besideEngine = s.besideEngine :=
  releaseErrbuf_besideEngine s

@[simp] theorem advance_besideEngine (p : Nat) (s : State) : (s.advance p).besideEngine = s.besideEngine := rfl

/-- The end of a pixel step writes nothing to memory (R145). -/
theorem finishPixel_leaves (p : Nat) (r : PixelResult) : EngineLeaves r.state (finishPixel p r) := by
  cases r with
  | ok s =>
    simp only [finishPixel, PixelResult.state]
    split
    · exact ⟨by simp, fun a _ => by simp⟩
    · exact ⟨rfl, fun _ _ => rfl⟩
  | fail addr s => exact ⟨abort_besideEngine addr s, fun a _ => congrArg (Memory.read · a) (State.abort_mem s addr)⟩

/-- The write of a pixel inside the image writes R, G and B bytes of the buffer alone (R51, R52). -/
theorem wrotePixel_leaves {p : Nat} {s : State} (hp : p < s.lat.pixels) (x y z : Bool) :
    EngineLeaves s (wrotePixel p x y z s) where
  beside := wrotePixel_besideEngine p x y z s
  bytes a ha := wrotePixel_read_of_ne p x y z s (by
    have h0 := ha p 0 hp (by decide)
    have h1 := ha p 1 hp (by decide)
    have h2 := ha p 2 hp (by decide)
    unfold Latch.pixelAddr
    omega)

theorem computePixel_leaves {p : Nat} {s : State} (hp : p < s.lat.pixels) : EngineLeaves s (computePixel p s).state := by
  rcases computePixel_cases p s with ⟨x, y, z, -, h⟩ | ⟨-, x, y, z, -, h⟩ | ⟨-, -, h⟩ <;>
    simp only [h, PixelResult.state]
  · exact ⟨dropAnswer_besideEngine s, fun a _ => congrArg (Memory.read · a) (State.dropAnswer_mem s)⟩
  · exact wrotePixel_leaves hp x y z
  · have hwrote := wrotePixel_leaves hp true true true
    split
    · exact hwrote.trans ⟨rfl, fun _ _ => rfl⟩
    · exact hwrote

/-- A move of the ENGINE that answers a next state leaves what it should (R52). -/
theorem pixelStep_leaves (s : State) : OnNext (EngineLeaves s) (pixelStep s) := by
  rcases pixelStep_cases s with ⟨-, h⟩ | ⟨-, -, h⟩ | ⟨hen, -, h⟩ <;> rw [h]
  · exact (onNext_next ..).2 (.refl s)
  · exact onNext_fault _ _
  · have hp := ((engineEnabled_iff s).1 hen).2
    exact (onNext_next ..).2 ((computePixel_leaves hp).trans (finishPixel_leaves _ _))

/-- Several moves of the ENGINE are one move, and then the others. -/
theorem engineSteps_succ_eq_next {k : Nat} {s u : State} :
    engineSteps (k + 1) s = .next u ↔ ∃ t, pixelStep s = .next t ∧ engineSteps k t = .next u := by
  rw [engineSteps]
  cases pixelStep s <;> simp

theorem engineSteps_leaves (k : Nat) (s : State) : OnNext (EngineLeaves s) (engineSteps k s) := by
  induction k generalizing s with
  | zero => exact (onNext_next ..).2 (.refl s)
  | succ k ih =>
    intro u hu
    obtain ⟨t, hst, htu⟩ := engineSteps_succ_eq_next.1 hu
    exact (pixelStep_leaves s t hst).trans (ih t u htu)

/-- Settles O43, by induction on the number of moves. -/
theorem engineWritesOnlyRgbOfItsBuffer : Obligations.EngineWritesOnlyRgbOfItsBuffer := by
  intro k s t h
  obtain ⟨hbeside, hbytes⟩ := engineSteps_leaves k s t h
  exact ⟨hbytes, fields_of_besideEngine_eq hbeside⟩

end Sys2Proof.Machine

/-! PROOFS. A run depends on the block and on the bytes of its buffer alone: the ENGINE takes states that agree there to states that
agree there, and the other agents' moves, where they leave the buffer alone, keep a state among those that agree. -/

namespace Sys2Proof.Machine

open Sys2Proof

/-- A state without what the other agents may change beside a run: memory, the host's copies, the queue and the bus's answer. -/
def State.block (s : State) : State := { s with mem := [], hostCache := [], inputs := [], resp := .idle }

/-- Do two states agree in the block, and in memory on the buffer of the run? -/
structure SameRun (s t : State) : Prop where
  block : s.block = t.block
  bytes : ∀ a, s.lat.inBuffer a = true → s.mem.read a = t.mem.read a

theorem inBuffer_iff (l : Latch) (a : Nat) :
    l.inBuffer a = true ↔ l.base.toNat ≤ a ∧ a < l.base.toNat + 4 * l.pixels := by
  simp [Latch.inBuffer]

/-- The bytes of a pixel inside the image lie in the buffer (R44, R45). -/
theorem inBuffer_pixel {l : Latch} {p c : Nat} (hp : p < l.pixels) (hc : c < 4) : l.inBuffer (l.pixelAddr p + c) = true := by
  rw [inBuffer_iff, Latch.pixelAddr]
  omega

theorem SameRun.refl (s : State) : SameRun s s := ⟨rfl, fun _ _ => rfl⟩

section agree
variable {s t : State} (h : SameRun s t)
include h

theorem SameRun.lat : s.lat = t.lat := (congrArg State.lat h.block :)

theorem SameRun.fsm : s.fsm = t.fsm := (congrArg State.fsm h.block :)

theorem SameRun.scanP : s.scanP = t.scanP := (congrArg State.scanP h.block :)

theorem SameRun.marked : s.marked = t.marked := (congrArg State.marked h.block :)

theorem SameRun.engineEnabled : s.engineEnabled = t.engineEnabled := (congrArg State.engineEnabled h.block :)

theorem SameRun.nextAnswer (kind : AccessKind) (a : Nat) : s.nextAnswer kind a = t.nextAnswer kind a :=
  (congrArg (State.nextAnswer kind a) h.block :)

theorem SameRun.storedBytes (a : Nat) (out : Byte) : s.storedBytes a out = t.storedBytes a out :=
  (congrArg (State.storedBytes a out) h.block :)

theorem SameRun.errAt (p : Nat) : s.errAt p = t.errAt p := (congrArg (State.errAt · p) h.block :)

theorem SameRun.symm : SameRun t s := ⟨h.block.symm, fun a ha => (h.bytes a (h.lat ▸ ha)).symm⟩

theorem SameRun.trans {u : State} (h' : SameRun t u) : SameRun s u :=
  ⟨h.block.trans h'.block, fun a ha => (h.bytes a ha).trans (h'.bytes a (h.lat ▸ ha))⟩

/-- An operation of the block that writes no memory keeps the agreement. -/
theorem SameRun.map {f : State → State} (hblock : ∀ u, (f u).block = (f u.block).block) (hmem : ∀ u, (f u).mem = u.mem)
    (hlat : ∀ u, (f u).lat = u.lat) : SameRun (f s) (f t) where
  block := by rw [hblock s, hblock t, h.block]
  bytes a ha := by
    rw [hmem, hmem]
    exact h.bytes a (by rwa [hlat] at ha)

/-! The operations of a pixel step. -/

theorem SameRun.dropAnswer : SameRun s.dropAnswer t.dropAnswer :=
  h.map (fun u => by unfold State.dropAnswer; cases hb : u.busAnswers <;> simp [State.block, hb])
    State.dropAnswer_mem State.dropAnswer_lat

theorem SameRun.useStoredBytes : SameRun s.useStoredBytes t.useStoredBytes :=
  h.map (fun u => by unfold State.useStoredBytes; cases hm : u.marked <;> simp_all [State.block, State.marked])
    State.useStoredBytes_mem State.useStoredBytes_lat

theorem SameRun.releaseErrbuf : SameRun s.releaseErrbuf t.releaseErrbuf :=
  h.map (fun u => by unfold State.releaseErrbuf; cases hd : isDiffusion u.lat.strategy <;> simp [State.block, hd])
    State.releaseErrbuf_mem State.releaseErrbuf_lat

theorem SameRun.diffuse (p : Nat) (e : F64) : SameRun (s.diffuse p e) (t.diffuse p e) :=
  h.map (fun _ => rfl) (State.diffuse_mem · p e) (State.diffuse_lat · p e)

theorem SameRun.advance (p : Nat) : SameRun (s.advance p) (t.advance p) :=
  h.map (fun _ => rfl) (State.advance_mem · p) (State.advance_lat · p)

theorem SameRun.complete : SameRun s.complete t.complete :=
  h.releaseErrbuf.map (f := fun u => { u with busy := false, fsm := .idle, done := true }) (fun _ => rfl) (fun _ => rfl)
    (fun _ => rfl)

theorem SameRun.abort (a : Nat) : SameRun (s.abort a) (t.abort a) :=
  h.releaseErrbuf.map (f := fun u => { u.raiseError .busErr with faultAddr := BitVec.ofNat 32 a }) (fun _ => rfl)
    (fun _ => rfl) (fun _ => rfl)

section pixel
variable {p : Nat} (hp : p < s.lat.pixels)
include hp

theorem SameRun.readLum : readLum (t.lat.pixelAddr p) s = readLum (t.lat.pixelAddr p) t := by
  have hbyte (c : Nat) (hc : c < 4) := h.bytes _ (inBuffer_pixel hp hc)
  rw [h.lat] at hbyte
  have hbyte₀ := hbyte 0 (by decide)
  rw [Nat.add_zero] at hbyte₀
  simp only [Machine.readLum, hbyte₀, hbyte 1 (by decide), hbyte 2 (by decide)]

theorem SameRun.stepOutput : stepOutput p s = stepOutput p t := by
  simp only [Machine.stepOutput, h.readLum hp, h.errAt, h.lat]

theorem SameRun.stepError : stepError p s = stepError p t := by
  simp only [Machine.stepError, h.stepOutput hp, h.readLum hp, h.errAt, h.lat]

/-- The write of a pixel inside memory puts the same bytes in both (R51). -/
theorem SameRun.wrotePixel (hs : s.mem.wf = true) (ht : t.mem.wf = true) (hlim : s.lat.pixelAddr p + 4 ≤ memoryLimit)
    (x y z : Bool) : SameRun (wrotePixel p x y z s) (wrotePixel p x y z t) where
  block := h.dropAnswer.dropAnswer.useStoredBytes.block
  bytes a ha := by
    rw [wrotePixel_lat] at ha
    rw [wrotePixel_mem, wrotePixel_mem, ← h.lat, ← h.stepOutput hp, ← h.dropAnswer.dropAnswer.storedBytes,
      Memory.read_writeRgb _ _ _ _ _ _ _ _ hs hlim, Memory.read_writeRgb _ _ _ _ _ _ _ _ ht hlim, h.bytes a ha]

end pixel
end agree

/-! The pixel step. -/

section results
variable {p : Nat} {s : State} {x y z : Bool}

/-- A pixel step whose read gets an error response fails there (R161). -/
theorem computePixel_of_read_error (hr : s.nextAnswer .read (s.lat.pixelAddr p) = .error x y z) :
    computePixel p s = .fail (s.lat.pixelAddr p) s.dropAnswer := by
  rcases computePixel_cases p s with ⟨-, -, -, -, h⟩ | ⟨hok, -⟩ | ⟨hok, -⟩
  · exact h
  · cases hok.symm.trans hr
  · cases hok.symm.trans hr

section read
variable (hr : s.nextAnswer .read (s.lat.pixelAddr p) = .ok)
include hr

/-- A pixel step whose write gets an error response fails after the write under its mask (R161). -/
theorem computePixel_of_write_error (hw : s.dropAnswer.nextAnswer .write (s.lat.pixelAddr p) = .error x y z) :
    computePixel p s = .fail (s.lat.pixelAddr p) (wrotePixel p x y z s) := by
  rcases computePixel_cases p s with ⟨_, _, _, herr, -⟩ | ⟨-, _, _, _, herr, h⟩ | ⟨-, hok, -⟩
  · cases hr.symm.trans herr
  · cases hw.symm.trans herr
    exact h
  · cases hok.symm.trans hw

/-- A pixel step whose accesses are both answered succeeds (R104 to R108, R128). -/
theorem computePixel_of_ok (hw : s.dropAnswer.nextAnswer .write (s.lat.pixelAddr p) = .ok) :
    computePixel p s = .ok (if isDiffusion s.lat.strategy then (wrotePixel p true true true s).diffuse p (stepError p s)
      else wrotePixel p true true true s) := by
  rcases computePixel_cases p s with ⟨_, _, _, herr, -⟩ | ⟨-, _, _, _, herr, -⟩ | ⟨-, -, h⟩
  · cases hr.symm.trans herr
  · cases hw.symm.trans herr
  · exact h

end read
end results

/-- Do two computations of a pixel end alike, in states that agree? -/
inductive SameResult : PixelResult → PixelResult → Prop
  | ok {s t : State} : SameRun s t → SameResult (.ok s) (.ok t)
  | fail {a : Nat} {s t : State} : SameRun s t → SameResult (.fail a s) (.fail a t)

/-- The end of a pixel step keeps the agreement, in completion and abort too (R145, R146, R161). -/
theorem SameResult.finishPixel {p : Nat} {r r' : PixelResult} (hr : SameResult r r') :
    SameRun (finishPixel p r) (finishPixel p r') := by
  cases hr with
  | ok h =>
    simp only [Machine.finishPixel, h.lat]
    split
    · exact (h.advance p).complete
    · exact h.advance p
  | fail h => exact h.abort _

section step
variable {s t : State} (h : SameRun s t)
include h

section wf
variable (hs : s.mem.wf = true) (ht : t.mem.wf = true)
include hs ht

theorem SameRun.computePixel {p : Nat} (hp : p < s.lat.pixels) (hlim : s.lat.pixelAddr p + 4 ≤ memoryLimit) :
    SameResult (computePixel p s) (computePixel p t) := by
  have hread := h.nextAnswer .read (s.lat.pixelAddr p)
  have hwrite := h.dropAnswer.nextAnswer .write (s.lat.pixelAddr p)
  rcases computePixel_cases p s with ⟨x, y, z, hr, hc⟩ | ⟨hr, x, y, z, hw, hc⟩ | ⟨hr, hw, hc⟩
  all_goals rw [hr, h.lat] at hread
  · rw [hc, computePixel_of_read_error hread.symm, h.lat]
    exact .fail h.dropAnswer
  · rw [hw, h.lat] at hwrite
    rw [hc, computePixel_of_write_error hread.symm hwrite.symm, h.lat]
    exact .fail (h.wrotePixel hp hs ht hlim x y z)
  · rw [hw, h.lat] at hwrite
    rw [hc, computePixel_of_ok hread.symm hwrite.symm, h.lat, h.stepError hp]
    have hwrote := h.wrotePixel hp hs ht hlim true true true
    split
    · exact .ok (hwrote.diffuse p _)
    · exact .ok hwrote

/-- From states that agree the ENGINE's move leads to states that agree (R145). -/
theorem SameRun.pixelStep {s' : State} (hstep : pixelStep s = .next s') :
    ∃ t', pixelStep t = .next t' ∧ SameRun s' t' := by
  rcases pixelStep_cases s with ⟨hen, hs'⟩ | ⟨-, -, hs'⟩ | ⟨hen, hlim, hs'⟩ <;> rw [hs'] at hstep <;> cases hstep
  · exact ⟨t, by simp [Machine.pixelStep, ← h.engineEnabled, hen], h⟩
  · refine ⟨_, ?_, (h.computePixel hs ht ((engineEnabled_iff s).1 hen).2 hlim).finishPixel⟩
    rw [Machine.pixelStep, ← h.engineEnabled, ← h.lat, ← h.scanP, if_pos hen, if_pos hlim]

end wf

/-- States that agree show the same observation (R186). -/
theorem SameRun.observe_eq : observe s = observe t := by
  have hbytes : bufferBytes s.mem t.lat.base.toNat t.lat.pixels = bufferBytes t.mem t.lat.base.toNat t.lat.pixels := by
    refine List.map_congr_left fun i hi => h.bytes _ ?_
    have hi := List.mem_range.1 hi
    rw [h.lat, inBuffer_iff]
    omega
  have hrest := congrArg observe h.block
  simp only [State.block, observe, observeBuffer, Observation.mk.injEq] at hrest
  simp [observe, observeBuffer, hbytes, hrest, h.lat]

end step

/-! The other agents' moves. -/

/-- A byte written outside the buffer leaves the run (R62). -/
theorem SameRun.write_outside {s : State} {a : Nat} (ha : s.lat.inBuffer a = false) (b : Byte) (cs : List HostCopy)
    (r : Response) : SameRun s { s with mem := s.mem.write a b, hostCache := cs, resp := r } where
  block := rfl
  bytes c hc := (Memory.read_write_of_ne s.mem a c b (by rintro rfl; simp [ha] at hc)).symm

/-- A byte that is not in the buffer races with nothing (R62). -/
theorem races_of_not_inBuffer {s : State} {a : Nat} (h : s.lat.inBuffer a = false) : s.races a = false := by
  simp [State.races, h]

/-- A memory access outside the run's buffer leaves the run (R62). -/
theorem memAccess_sameRun (who : Requester) {op : MemOp} {s : State} (h : s.lat.inBuffer (opAddr op) = false) :
    OnNext (SameRun s) (memAccess who op s) := by
  rcases memAccess_cases who op s with
    ⟨hrace, -⟩ | ⟨-, -, hm⟩ | ⟨-, -, -, hm⟩ | ⟨-, -, -, ⟨a, -, hm⟩ | ⟨a, b, rfl, hm⟩⟩
  · cases (races_of_not_inBuffer h).symm.trans hrace
  all_goals rw [hm, onNext_next]
  · exact ⟨rfl, fun _ _ => rfl⟩
  · exact ⟨rfl, fun _ _ => rfl⟩
  · obtain ⟨cs, b, hr⟩ := readMem_cases who a.toNat s
    rw [hr]
    exact ⟨rfl, fun _ _ => rfl⟩
  · rcases writeMem_cases who a.toNat b s with ⟨cs, hw⟩ | hw <;> rw [hw]
    · exact ⟨rfl, fun _ _ => rfl⟩
    · exact .write_outside h ..

/-- Cleaning a byte does nothing, or writes back a dirty copy and is an access to it (R61, log 15). -/
theorem cleanCopy_eq_or_eventAddr (a : Word) (s : State) :
    cleanCopy a.toNat s = s ∨ eventAddr s.hostCache (.clean a) = some a.toNat := by
  cases hc : findCopy a.toNat s.hostCache with
  | none => exact .inl (by simp [cleanCopy, hc])
  | some c =>
    cases hd : c.dirty
    · exact .inl (by simp [cleanCopy, hc, hd])
    · exact .inr (by simp [eventAddr, hc, hd])

/-- Maintenance that writes nothing back to the run's buffer leaves the run (R62). -/
theorem cleanCopy_sameRun {a : Word} {s : State} (h : ∀ n, eventAddr s.hostCache (.clean a) = some n → s.lat.inBuffer n = false) :
    SameRun s (cleanCopy a.toNat s) := by
  rcases cleanCopy_eq_or_eventAddr a s with hc | ha
  · rw [hc]
    exact .refl s
  · have hout := h _ ha
    rcases cleanCopy_cases a.toNat s with hc | ⟨hrace, -⟩ | ⟨-, b, cs, hc⟩
    · rw [hc]
      exact .refl s
    · cases (races_of_not_inBuffer hout).symm.trans hrace
    · rw [hc]
      exact .write_outside hout ..

section running
variable {s : State} (h : StateInv s) (hrun : s.fsm = .run)
include h hrun

/-- During a run a STATUS write finds no flag to clear (R30, R143). -/
theorem StateInv.writeStatus_of_run (d : Word) : s.writeStatus d = s := by
  obtain ⟨hdone, herr⟩ := h.run_clean hrun
  have hcode := h.flags.code_none herr
  rw [writeStatus_eq]
  obtain ⟨⟩ := s
  simp_all

/-- During a run a host access to the window changes the bus's answer alone (R139, R140, R143). -/
theorem StateInv.accessStep_of_run (a : Access) : ∃ r, Machine.accessStep a s = .next (s.respond r) := by
  have hb := h.flags.busy_iff_run.2 hrun
  rcases accessStep_cases a s with ⟨d, -, ha⟩ | ⟨r, ha⟩ | ⟨r, d, ha⟩
  · exact ⟨.written, ha.trans (ctrlStep_of_busy hb d)⟩
  · exact ⟨r, ha⟩
  · refine ⟨.written, ?_⟩
    rcases regWrite_busy hb r d with hw | hw <;> rw [ha, hw]
    rw [h.writeStatus_of_run hrun]

/-- During a run every move but the ENGINE's and the reset, which accesses no byte of the buffer, leaves the run (R64). -/
theorem StateInv.eventStep_sameRun {e : Event} (he : e ≠ .engine) (hreset : e ≠ .reset)
    (hquiet : ∀ a, eventAddr s.hostCache e = some a → s.lat.inBuffer a = false) : OnNext (SameRun s) (Machine.eventStep e s) := by
  cases e with
  | access a =>
    obtain ⟨r, ha⟩ := h.accessStep_of_run hrun a
    rw [Machine.eventStep, ha, onNext_next]
    exact ⟨rfl, fun _ _ => rfl⟩
  | mem who op => exact memAccess_sameRun who (hquiet _ rfl)
  | clean a => exact (onNext_next ..).2 (cleanCopy_sameRun hquiet)
  | discard a =>
    obtain ⟨cs, hd⟩ := discardCopy_cases a.toNat s
    rw [Machine.eventStep, hd, onNext_next]
    exact ⟨rfl, fun _ _ => rfl⟩
  | engine => exact absurd rfl he
  | reset => exact absurd rfl hreset

end running

end Sys2Proof.Machine

/-! PROOFS. A command issued from a clean launch does what the ENGINE alone would do (O51): the issue starts a run or is rejected; the
states of the run follow the ENGINE's steps, as many as SCAN.P; the step that ends it is the ENGINE's; and so its observation is one. -/

namespace Sys2Proof.Machine

open Sys2Proof

/-! The issue. -/

/-- The state in which a host's CTRL write is decoded: the event has left the queue, and the bus has taken the write. -/
def State.taking (rest : List Event) (s : State) : State := (s.withInputs rest).respond .written

/-- A word with START = 1 is a command or illegal (R81). -/
theorem decodeWord_of_start {d : Word} (h : startBit d = true) :
    (∃ a : Strategy, decodeWord d = .ok (a.instr (irqBit d))) ∨ ∃ e, decodeWord d = .error e := by
  rcases decodeWord_cases d with ⟨hnostart, -⟩ | ⟨-, -, hd⟩ | ⟨-, -, -, -, hd⟩ | ⟨a, -, -, -, -, hd⟩
  · cases hnostart.symm.trans h
  · exact .inr ⟨_, hd⟩
  · exact .inr ⟨_, hd⟩
  · exact .inl ⟨a, hd⟩

/-- With BUSY = 0 a word with START = 1 is accepted with passing operands, or rejected (R141, R160). -/
theorem ctrlStep_of_start {d : Word} {s : State} (hb : s.busy = false) (h : startBit d = true) :
    (∃ a irqEn, s.argError = none ∧
      ctrlStep d s = .next (((s.respond .written).beginIssue irqEn a.code).accept a)) ∨
    (∃ irqEn algo c, ctrlStep d s = .next (((s.respond .written).beginIssue irqEn algo).raiseError c)) := by
  rcases decodeWord_of_start h with ⟨a, hd⟩ | ⟨e, hd⟩ <;> simp only [ctrlStep, hd]
  · rw [exec_instr]
    rcases issueCommand_cases a (irqBit d) (s.respond .written) with ⟨hbusy, -⟩ | ⟨-, c, -, hi⟩ | ⟨-, hargs, hi⟩
    · cases hb.symm.trans hbusy
    · exact .inr ⟨_, _, c, hi⟩
    · exact .inl ⟨a, _, hargs, hi⟩
  · rcases issueIllegal_cases d e (s.respond .written) with ⟨hbusy, -⟩ | ⟨-, hi⟩
    · cases hb.symm.trans hbusy
    · exact .inr ⟨_, _, _, hi⟩

/-- A host's CTRL write with START = 1 while BUSY = 0 is accepted with passing operands, or rejected (R141, R160). -/
theorem IssuesCommand.accepted_or_rejected {s₀ s : State} (h : IssuesCommand s₀ s) :
    (∃ rest a irqEn, ArgsPass s₀ ∧ s = ((s₀.taking rest).beginIssue irqEn a.code).accept a) ∨
    (∃ rest irqEn algo c, s = ((s₀.taking rest).beginIssue irqEn algo).raiseError c) := by
  obtain ⟨hb, ⟨d, rest, hi, hstart⟩, hstep⟩ := h
  rw [step_ctrl hi] at hstep
  rcases ctrlStep_of_start (s := s₀.withInputs rest) hb hstart with ⟨a, irqEn, hargs, hs⟩ | ⟨irqEn, algo, c, hs⟩
  · exact .inl ⟨rest, a, irqEn, (argsPass_iff s₀).2 hargs, Host.Outcome.next.inj (hstep.symm.trans hs)⟩
  · exact .inr ⟨rest, irqEn, algo, c, Host.Outcome.next.inj (hstep.symm.trans hs)⟩

/-- The issue determines its next state. -/
theorem IssuesCommand.unique {s₀ s s' : State} (h : IssuesCommand s₀ s) (h' : IssuesCommand s₀ s') : s = s' := by
  obtain ⟨-, -, hstep⟩ := h
  obtain ⟨-, -, hstep'⟩ := h'
  exact Host.Outcome.next.inj (hstep.symm.trans hstep')

/-- Acceptance over ordinary memory starts a run, whatever the scan and the flags were before the issue (R144, R183). -/
theorem runStart_accept {s : State} (hwf : LaunchWf s) (hfsm : s.fsm = .idle) (hb : s.busy = false) (hmarked : s.marked = false)
    (hargs : ArgsPass s) (hord : s.bufferOrdinary = true) (a : Strategy) (irqEn : Bool) :
    RunStart ((s.beginIssue irqEn a.code).accept a) := by
  have hacc : (s.beginIssue irqEn a.code).accept a = (s.beginIssue irqEn a.code).startRun a := by
    simp [State.accept, hord]
  have hissued : StateInv { s.beginIssue irqEn a.code with scanP := 0 } :=
    .of_idle hwf.params_wf hwf.mem_wf (Nat.zero_le _) hfsm hb (by simp) (by simp)
  rw [hacc]
  exact
    { inv := hissued.startRun ((argsPass_iff s).1 hargs) rfl rfl rfl rfl
      running := rfl
      first := rfl
      no_fault_addr := rfl
      unmarked := hmarked
      errbuf_zero := fun hd => if_pos hd }

/-- With passing operands the buffer that R57 asks about is the declared one (R158). -/
theorem ArgsPass.bufferOrdinary_eq {s : State} (h : ArgsPass s) :
    s.bufferOrdinary = ordinaryRange s.params s.argBase s.argLen := by
  obtain ⟨-, -, -, -, hlen, -, -⟩ := h
  rw [State.bufferOrdinary, Nat.mul_comm]
  exact congrArg _ hlen.symm

/-- With passing operands the latched buffer is the declared one, byte by byte (R37, R158). -/
theorem ArgsPass.inBuffer_latched {s : State} (h : ArgsPass s) (a : Strategy) (x : Nat) :
    (s.latched a).inBuffer x = s.inDeclared x := by
  obtain ⟨hbase, hlen⟩ := h.latched_buffer a
  rw [Latch.inBuffer, hbase, hlen]
  rfl

/-- A run begun from a clean launch (R183): it starts afresh, and until it ends no other agent accesses its buffer. -/
structure CleanRun (s : State) : Prop where
  start : RunStart s
  quiet : ∀ t a, WhileRunning s t → t.foreignAddr = some a → s.lat.inBuffer a = false

/-- From a clean launch a command starts a clean run, or is rejected (R141, R183). -/
theorem CleanLaunch.cleanRun_or_rejected {s₀ s : State} (hwf : LaunchWf s₀) (hclean : CleanLaunch s₀)
    (hissue : IssuesCommand s₀ s) :
    CleanRun s ∨ ∃ rest irqEn algo c, s = ((s₀.taking rest).beginIssue irqEn algo).raiseError c := by
  refine hissue.accepted_or_rejected.imp_left ?_
  rintro ⟨rest, a, irqEn, hargs, hs⟩
  have hord : s₀.bufferOrdinary = true := hargs.bufferOrdinary_eq.trans hclean.ordinary
  have hstart : RunStart s := hs ▸ runStart_accept (s := s₀.taking rest) ⟨hwf.params_wf, hwf.mem_wf⟩ hclean.idle hclean.not_busy
    hclean.unmarked hargs hord a irqEn
  have hlat : s.lat = s₀.latched a := by
    have hord' : ((s₀.taking rest).beginIssue irqEn a.code).bufferOrdinary = true := hord
    rw [hs, State.accept, if_pos hord']
    rfl
  refine ⟨hstart, fun t x ht hx => ?_⟩
  rw [hlat, hargs.inBuffer_latched]
  exact hclean.undisturbed s t x hissue ht hx

/-! The ENGINE's steps alone. -/

/-- One more step of the ENGINE, after the others. -/
theorem engineSteps_succ_of_next {k : Nat} {s t u : State} (h : engineSteps k s = .next t) (hstep : pixelStep t = .next u) :
    engineSteps (k + 1) s = .next u := by
  induction k generalizing s with
  | zero =>
    cases h
    exact engineSteps_succ_eq_next.2 ⟨u, hstep, rfl⟩
  | succ k ih =>
    obtain ⟨v, hsv, hvt⟩ := engineSteps_succ_eq_next.1 h
    exact engineSteps_succ_eq_next.2 ⟨v, hsv, ih hvt⟩

/-- An idle ENGINE has no step (R148). -/
theorem pixelStep_of_idle {s : State} (h : s.fsm = .idle) : pixelStep s = .next s := by
  simp [pixelStep, State.engineEnabled, h]

/-- Where the ENGINE has come to rest it stays. -/
theorem engineSteps_add_of_idle {k : Nat} {s t : State} (h : engineSteps k s = .next t) (hidle : t.fsm = .idle) (j : Nat) :
    engineSteps (k + j) s = .next t := by
  induction j with
  | zero => exact h
  | succ j ih => exact engineSteps_succ_of_next ih (pixelStep_of_idle hidle)

/-- The ENGINE comes to rest in one state only. -/
theorem engineSteps_idle_unique {k k' : Nat} {s t t' : State} (h : engineSteps k s = .next t) (hidle : t.fsm = .idle)
    (h' : engineSteps k' s = .next t') (hidle' : t'.fsm = .idle) : t = t' := by
  have hk := engineSteps_add_of_idle h hidle k'
  have hk' := engineSteps_add_of_idle h' hidle' k
  rw [Nat.add_comm] at hk'
  exact Host.Outcome.next.inj (hk.symm.trans hk')

theorem StateInv.engineSteps {s : State} (h : StateInv s) (k : Nat) : OnNext StateInv (engineSteps k s) := by
  induction k generalizing s with
  | zero => exact (onNext_next ..).2 h
  | succ k ih =>
    intro u hu
    obtain ⟨t, hst, htu⟩ := engineSteps_succ_eq_next.1 hu
    exact ih (h.pixelStep t hst) u htu

/-- A pixel step that does not end the run moves the scan to the next pixel (R145). -/
theorem finishPixel_scanP {p : Nat} {r : PixelResult} (hrun : (finishPixel p r).fsm = .run) :
    (finishPixel p r).scanP = p + 1 := by
  cases r with
  | ok s =>
    simp only [finishPixel] at hrun ⊢
    split
    · simp
    · rfl
  | fail addr s => simp [finishPixel] at hrun

/-- While a run has pixels left, the ENGINE's move ends it or moves the scan to the next pixel (R145). -/
theorem pixelStep_scanP {s t : State} (hen : s.engineEnabled = true) (hstep : pixelStep s = .next t) (hrun : t.fsm = .run) :
    t.scanP = s.scanP + 1 := by
  rcases pixelStep_cases s with ⟨hdis, -⟩ | ⟨-, -, h⟩ | ⟨-, -, h⟩
  · cases hdis.symm.trans hen
  · cases h.symm.trans hstep
  · cases h.symm.trans hstep
    exact finishPixel_scanP hrun

/-! The run among the moves of the others. -/

/-- Does a state agree, as far as the run goes, with the one that `k` steps of the ENGINE alone lead to? -/
def Follows (s : State) (k : Nat) (t : State) : Prop := ∃ u, engineSteps k s = .next u ∧ SameRun u t

theorem Follows.of_sameRun {s t t' : State} {k : Nat} (h : Follows s k t) (h' : SameRun t t') : Follows s k t' := by
  obtain ⟨u, hu, hut⟩ := h
  exact ⟨u, hu, hut.trans h'⟩

/-- The ENGINE's move from a state that follows `k` steps follows `k + 1`. -/
theorem Follows.pixelStep {s t t' : State} {k : Nat} (h : Follows s k t) (hs : StateInv s) (ht : StateInv t)
    (hstep : pixelStep t = .next t') : Follows s (k + 1) t' := by
  obtain ⟨u, hu, hut⟩ := h
  obtain ⟨u', hu', hut'⟩ := hut.symm.pixelStep ht.mem_wf (hs.engineSteps k u hu).mem_wf hstep
  exact ⟨u', engineSteps_succ_of_next hu hu', hut'.symm⟩

/-- A state that follows the ENGINE's steps has the latches and the marks the run began with (R37, R172). -/
theorem Follows.lat_marked {s t : State} {k : Nat} (h : Follows s k t) : t.lat = s.lat ∧ t.marked = s.marked := by
  obtain ⟨u, hu, hut⟩ := h
  have hleaves := engineSteps_leaves k s u hu
  exact ⟨hut.lat.symm.trans hleaves.lat, hut.marked.symm.trans (congrArg State.marked hleaves.beside :)⟩

/-- What a step during a run does, where no other agent accesses the buffer and no reset comes: another agent's leaves the run as it
is; the ENGINE's is its move, from a state that differs in the queue alone (R163). -/
theorem StateInv.step_of_run {s t : State} (h : StateInv s) (hrun : s.fsm = .run) (hreset : s.inputs.head? ≠ some .reset)
    (hquiet : ∀ a, s.foreignAddr = some a → s.lat.inBuffer a = false) (hstep : step s = .next t) :
    SameRun s t ∨ ∃ s', StateInv s' ∧ SameRun s s' ∧ Machine.pixelStep s' = .next t := by
  cases hi : s.inputs with
  | nil => exact .inr ⟨s, h, .refl s, (step_nil hi).symm.trans hstep⟩
  | cons e rest =>
    have hqueue : SameRun s (s.withInputs rest) := ⟨rfl, fun _ _ => rfl⟩
    have hevent : Machine.eventStep e (s.withInputs rest) = .next t := (step_cons hi).symm.trans hstep
    by_cases he : e = .engine
    · subst he
      exact .inr ⟨s.withInputs rest, h.withInputs rest, hqueue, hevent⟩
    · refine .inl (hqueue.trans ((h.withInputs rest).eventStep_sameRun hrun he (by simpa [hi] using hreset) ?_ t hevent))
      simpa [State.foreignAddr, hi] using hquiet

section run
variable {s t t' : State} (hs : StateInv s) (ht : StateInv t) (hfollows : Follows s t.scanP t) (hrun : t.fsm = .run)
  (hquiet : ∀ a, t.foreignAddr = some a → s.lat.inBuffer a = false) (hreset : t.inputs.head? ≠ some .reset)
  (hstep : step t = .next t')
include hs ht hfollows hrun hquiet hreset hstep

/-- A step of a run that follows the ENGINE's follows them too: if the run goes on, it is as far as SCAN.P says; if it ends, the step
was the ENGINE's. -/
theorem Follows.step :
    (t'.fsm = .run → Follows s t'.scanP t') ∧ (t'.fsm = .idle → Follows s (t.scanP + 1) t') := by
  rw [← hfollows.lat_marked.1] at hquiet
  rcases ht.step_of_run hrun hreset hquiet hstep with hsame | ⟨v, hv, hsame, hengine⟩
  · refine ⟨fun _ => hsame.scanP ▸ hfollows.of_sameRun hsame, fun hidle => ?_⟩
    cases hidle.symm.trans (hsame.fsm.symm.trans hrun)
  · have hnext := (hfollows.of_sameRun hsame).pixelStep hs hv hengine
    refine ⟨fun hgoes => ?_, fun _ => hnext⟩
    have hen : v.engineEnabled = true :=
      (engineEnabled_iff v).2 ⟨hsame.fsm.symm.trans hrun, (hv.running (hsame.fsm.symm.trans hrun)).scan_inside⟩
    rw [pixelStep_scanP hen hengine hgoes, ← hsame.scanP]
    exact hnext

end run

/-- The states of a run are running. -/
theorem WhileRunning.running {s t : State} (h : WhileRunning s t) : t.fsm = .run := by
  cases h with
  | start hrun => exact hrun
  | next _ _ hrun => exact hrun

/-- The reset input ends a run, so that it is no step inside one (R179). -/
theorem head_ne_reset_of_run {s t : State} (hstep : step s = .next t) (hrun : t.fsm = .run) : s.inputs.head? ≠ some .reset := by
  intro hhead
  obtain ⟨rest, hi⟩ := List.head?_eq_some_iff.1 hhead
  cases (step_cons hi).symm.trans hstep
  cases hrun

section clean
variable {s t : State} (hclean : CleanRun s)
include hclean

/-- Every state of a clean run follows the ENGINE's steps, as many as SCAN.P (R163). -/
theorem CleanRun.follows (ht : WhileRunning s t) : StateInv t ∧ Follows s t.scanP t := by
  induction ht with
  | start hrun =>
    rw [hclean.start.first]
    exact ⟨hclean.start.inv, s, rfl, .refl s⟩
  | @next u t hu hstep hrun ih =>
    obtain ⟨huinv, hufollows⟩ := ih
    have hreset := head_ne_reset_of_run hstep hrun
    have hboth := Follows.step hclean.start.inv huinv hufollows hu.running (hclean.quiet u · hu) hreset hstep
    exact ⟨stepKeepsInvariant u t huinv hstep, hboth.1 hrun⟩

theorem CleanRun.whileRunning_unmarked (ht : WhileRunning s t) : t.marked = false := by
  rw [(hclean.follows ht).2.lat_marked.2, hclean.start.unmarked]

/-- In a state of a clean run the observation is that of SCAN.P steps of the ENGINE alone (R64). -/
theorem CleanRun.whileRunning_observe (ht : WhileRunning s t) :
    ∃ u, engineSteps t.scanP s = .next u ∧ u.fsm = .run ∧ u.scanP = t.scanP ∧ observe u = observe t := by
  obtain ⟨-, u, hu, hut⟩ := hclean.follows ht
  exact ⟨u, hu, hut.fsm.trans ht.running, hut.scanP, hut.observe_eq⟩

/-- A clean run ends, unless by a reset, by at most W×H steps of the ENGINE, unmarked (R64, R186). -/
theorem CleanRun.end_observe {t' : State} (ht : WhileRunning s t) (hreset : t.inputs.head? ≠ some .reset)
    (hstep : step t = .next t') (hidle : t'.fsm = .idle) : t'.marked = false ∧
      ∃ k u, k ≤ s.lat.pixels ∧ engineSteps k s = .next u ∧ u.fsm = .idle ∧ observe u = observe t' := by
  obtain ⟨htinv, htfollows⟩ := hclean.follows ht
  have hboth := Follows.step hclean.start.inv htinv htfollows ht.running (hclean.quiet t · ht) hreset hstep
  have hend := hboth.2 hidle
  have hscan := (htinv.running ht.running).scan_inside
  rw [htfollows.lat_marked.1] at hscan
  rw [hend.lat_marked.2, hclean.start.unmarked]
  obtain ⟨u, hu, hut⟩ := hend
  exact ⟨rfl, t.scanP + 1, u, hscan, hu, hut.fsm.trans hidle, hut.observe_eq⟩

end clean

/-! The command. -/

/-- A run is in progress only where the issue started one. -/
theorem WhileRunning.started {s t : State} (h : WhileRunning s t) : s.fsm = .run := by
  induction h with
  | start hrun => exact hrun
  | next _ _ _ ih => exact ih

/-- A command that has a run is not rejected. -/
theorem RunEnd.not_rejected {s₀ s s₁ : State} (hend : RunEnd s₀ s₁) (hissue : IssuesCommand s₀ s) : s.fsm ≠ .idle := by
  obtain ⟨s', t, hissue', ht, -, -, -⟩ := hend
  cases hissue.unique hissue'
  rw [ht.started]
  decide

section command
variable {s₀ s : State} (hwf : LaunchWf s₀) (hclean : CleanLaunch s₀) (hissue : IssuesCommand s₀ s)
include hwf hclean hissue

/-- A command from a clean launch that starts a run starts a clean one. -/
theorem CleanLaunch.cleanRun (hrun : s.fsm = .run) : CleanRun s := by
  rcases hclean.cleanRun_or_rejected hwf hissue with hs | ⟨rest, irqEn, algo, c, rfl⟩
  · exact hs
  · cases hrun

/-- A command from a clean launch that starts no run is rejected: its buffer is as it was, and its flags are those of a rejection
(R160). -/
theorem CleanLaunch.rejected (hidle : s.fsm = .idle) : s.mem = s₀.mem ∧
    (observeRejected s).buffer = (observeRejected s₀).buffer ∧ s.done = false ∧ s.err = true ∧ s.progress = 0 ∧
    s.faultAddr = 0 := by
  rcases hclean.cleanRun_or_rejected hwf hissue with hs | ⟨rest, irqEn, algo, c, rfl⟩
  · cases hidle.symm.trans hs.start.running
  · exact ⟨rfl, rfl, rfl, rfl, rfl, rfl⟩

/-- The run of a command from a clean launch has a valid end, and the observation is that of the ENGINE's steps (R186). -/
theorem CleanLaunch.runEnd {s₁ : State} (hend : RunEnd s₀ s₁) : ValidEnd s₀ s₁ ∧
    ∃ k u, k ≤ s.lat.pixels ∧ engineSteps k s = .next u ∧ u.fsm = .idle ∧ observe u = observe s₁ := by
  have hend' := hend
  obtain ⟨s', t, hissue', ht, hreset, hstep, hidle⟩ := hend'
  cases hissue.unique hissue'
  have hrun := hclean.cleanRun hwf hissue ht.started
  obtain ⟨hunmarked, hobs⟩ := hrun.end_observe ht hreset hstep hidle
  exact ⟨⟨hend, hunmarked⟩, hobs⟩

/-- Two ends of the run show one observation: both are where the ENGINE alone comes to rest. -/
theorem CleanLaunch.runEnd_observe_unique {s₁ s₁' : State} (hend : RunEnd s₀ s₁) (hend' : RunEnd s₀ s₁') :
    observe s₁ = observe s₁' := by
  obtain ⟨-, k, u, -, hu, hidle, hobs⟩ := hclean.runEnd hwf hissue hend
  obtain ⟨-, k', u', -, hu', hidle', hobs'⟩ := hclean.runEnd hwf hissue hend'
  rw [← hobs, ← hobs', engineSteps_idle_unique hu hidle hu' hidle']

/-- A command from a clean launch has at most one observation (R186). -/
theorem CleanLaunch.observation_unique {o o' : Observation} (h : CommandObservation s₀ o) (h' : CommandObservation s₀ o') :
    o = o' := by
  cases h with
  | run hvalid =>
    cases h' with
    | run hvalid' => exact hclean.runEnd_observe_unique hwf hissue hvalid.1 hvalid'.1
    | rejected hissue' hidle => exact absurd hidle (hvalid.1.not_rejected hissue')
  | rejected hissue' hidle =>
    cases h' with
    | run hvalid' => exact absurd hidle (hvalid'.1.not_rejected hissue')
    | rejected hissue'' _ => rw [hissue'.unique hissue'']

end command

/-- Settles O51: the run follows the ENGINE's steps until it ends, a rejection touches no memory, and the ENGINE comes to rest once. -/
theorem cleanRunIsTheEnginesAlone : Obligations.CleanRunIsTheEnginesAlone := by
  intro s₀ s hwf hclean hissue
  refine ⟨fun t ht => ?_, fun s₁ => hclean.runEnd hwf hissue, hclean.rejected hwf hissue,
    fun o o' => hclean.observation_unique hwf hissue⟩
  have hrun := hclean.cleanRun hwf hissue ht.started
  exact ⟨hrun.whileRunning_unmarked ht, hrun.whileRunning_observe ht⟩

end Sys2Proof.Machine

/-! PROOFS. Encoding: the fields of a word, the rows of the opcode table, the decoder as an equivalence for each answer (O2), the round
trip (O1) and the sample words (O3). -/

namespace Sys2Proof

/-! The fields of a word (R72). -/

/-- A concatenation as a number: the high part shifted past the low part. -/
theorem toNat_append_eq_add {m n : Nat} (x : BitVec m) (y : BitVec n) : (x ++ y).toNat = x.toNat * 2 ^ n + y.toNat := by
  rw [BitVec.toNat_append, ← Nat.shiftLeft_add_eq_or_of_lt y.isLt, Nat.shiftLeft_eq]

/-- A Boolean is known by its value. -/
theorem bool_eq_of_toNat_eq {b c : Bool} (h : b.toNat = c.toNat) : b = c := by
  rw [← Bool.ofNat_toNat b, h, Bool.ofNat_toNat]

section fields
variable (d : Word)

theorem toNat_startBit : (startBit d).toNat = d.toNat % 2 := by
  simp only [startBit, BitVec.getLsbD, Nat.toNat_testBit, pow_zero, Nat.div_one]

theorem toNat_irqBit : (irqBit d).toNat = d.toNat / 2 % 2 := by
  simp only [irqBit, BitVec.getLsbD, Nat.toNat_testBit, pow_one]

theorem toNat_rsvdLo : (rsvdLo d).toNat = d.toNat / 4 % 4 := by
  simp [rsvdLo, BitVec.extractLsb'_toNat, Nat.shiftRight_eq_div_pow]

theorem toNat_algoField : (algoField d).toNat = d.toNat / 16 % 16 := by
  simp [algoField, BitVec.extractLsb'_toNat, Nat.shiftRight_eq_div_pow]

theorem toNat_rsvdHi : (rsvdHi d).toNat = d.toNat / 256 := by
  simp only [rsvdHi, BitVec.extractLsb'_toNat, Nat.shiftRight_eq_div_pow]
  omega

end fields

/-- A word is its five fields: START, IRQ_EN, RSVD_LO, ALGO and RSVD_HI (R71, R72). -/
theorem word_eq_iff_fields {d e : Word} : d = e ↔
    startBit d = startBit e ∧ irqBit d = irqBit e ∧ rsvdLo d = rsvdLo e ∧ algoField d = algoField e ∧
      rsvdHi d = rsvdHi e := by
  constructor
  · rintro rfl
    exact ⟨rfl, rfl, rfl, rfl, rfl⟩
  · rintro ⟨hstart, hirq, hlo, halgo, hhi⟩
    apply BitVec.eq_of_toNat_eq
    have hstart := congrArg Bool.toNat hstart
    have hirq := congrArg Bool.toNat hirq
    have hlo := congrArg BitVec.toNat hlo
    have halgo := congrArg BitVec.toNat halgo
    have hhi := congrArg BitVec.toNat hhi
    simp only [toNat_startBit, toNat_irqBit, toNat_rsvdLo, toNat_algoField, toNat_rsvdHi] at hstart hirq hlo halgo hhi
    omega

section mask
variable (d m : Word)

/-- Masking a word masks each of its fields. -/
theorem startBit_and : startBit (d &&& m) = (startBit d && startBit m) := BitVec.getLsbD_and

theorem irqBit_and : irqBit (d &&& m) = (irqBit d && irqBit m) := BitVec.getLsbD_and

theorem rsvdLo_and : rsvdLo (d &&& m) = rsvdLo d &&& rsvdLo m := BitVec.extractLsb'_and

theorem algoField_and : algoField (d &&& m) = algoField d &&& algoField m := BitVec.extractLsb'_and

theorem rsvdHi_and : rsvdHi (d &&& m) = rsvdHi d &&& rsvdHi m := BitVec.extractLsb'_and

end mask

section ctrlWordOf
variable (algo : BitVec 4) (irqEn start : Bool)

/-- A CTRL word as a number: ALGO from bit 4, IRQ_EN at bit 1, START at bit 0 (R71, R84). -/
theorem toNat_ctrlWordOf :
    (ctrlWordOf algo irqEn start).toNat = algo.toNat * 16 + irqEn.toNat * 2 + start.toNat := by
  simp only [ctrlWordOf, toNat_append_eq_add, bit, BitVec.toNat_ofBool, BitVec.ofNat_eq_ofNat, BitVec.toNat_zero]
  omega

/-- The fields of a CTRL word are those it was put together from, and no reserved bit is set. -/
@[simp] theorem fields_ctrlWordOf :
    startBit (ctrlWordOf algo irqEn start) = start ∧ irqBit (ctrlWordOf algo irqEn start) = irqEn ∧
      rsvdLo (ctrlWordOf algo irqEn start) = 0 ∧ algoField (ctrlWordOf algo irqEn start) = algo ∧
      rsvdHi (ctrlWordOf algo irqEn start) = 0 := by
  have hstart := start.toNat_lt
  have hirq := irqEn.toNat_lt
  refine ⟨bool_eq_of_toNat_eq ?_, bool_eq_of_toNat_eq ?_, BitVec.eq_of_toNat_eq ?_, BitVec.eq_of_toNat_eq ?_,
    BitVec.eq_of_toNat_eq ?_⟩
  · rw [toNat_startBit, toNat_ctrlWordOf]
    omega
  · rw [toNat_irqBit, toNat_ctrlWordOf]
    omega
  · rw [toNat_rsvdLo, toNat_ctrlWordOf, BitVec.ofNat_eq_ofNat, BitVec.toNat_zero]
    omega
  · rw [toNat_algoField, toNat_ctrlWordOf]
    omega
  · rw [toNat_rsvdHi, toNat_ctrlWordOf, BitVec.ofNat_eq_ofNat, BitVec.toNat_zero]
    omega

end ctrlWordOf

/-- A word from its own four bytes (R48). -/
theorem wordOfBytes_extractLsb' (w : Word) :
    wordOfBytes (w.extractLsb' 0 8) (w.extractLsb' 8 8) (w.extractLsb' 16 8) (w.extractLsb' 24 8) = w := by
  apply BitVec.eq_of_toNat_eq
  simp only [wordOfBytes, toNat_append_eq_add, BitVec.extractLsb'_toNat, Nat.shiftRight_eq_div_pow]
  omega

/-! The instructions: eight commands, one per strategy, and CTRL.SET. -/

/-- Every instruction is a command or CTRL.SET (R73, R79). -/
theorem Instr.command_or_ctrlSet (i : Instr) :
    (∃ (a : Strategy) (irqEn : Bool), i = a.instr irqEn) ∨ ∃ irqEn algo, i = .ctrlSet irqEn algo := by
  rcases Machine.exec_cases i .reset with ⟨a, irqEn, h, -⟩ | ⟨irqEn, algo, h, -⟩
  · exact .inl ⟨a, irqEn, h⟩
  · exact .inr ⟨irqEn, algo, h⟩

/-- The codes of the strategies differ (R73). -/
@[simp] theorem Strategy.code_inj {a b : Strategy} : a.code = b.code ↔ a = b := by
  constructor
  · intro h
    simpa using congrArg Strategy.ofCode h
  · rintro rfl
    rfl

section instr
variable (a : Strategy) (irqEn : Bool)

@[simp] theorem encode_instr : encode (a.instr irqEn) = ctrlWordOf a.code irqEn true := by
  cases a <;> rfl

/-- A command's row fixes every field but IRQ_EN (R81). -/
theorem row_instr : (a.instr irqEn).row = ⟨0xFFFFFFFD, ctrlWordOf a.code false true⟩ := by
  cases a <;> rfl

@[simp] theorem carriesFields_instr (d : Word) : Machine.carriesFields (a.instr irqEn) d ↔ irqEn = irqBit d := by
  cases a <;> rfl

@[simp] theorem Strategy.instr_ne_ctrlSet (b : Bool) (algo : BitVec 4) : a.instr irqEn ≠ .ctrlSet b algo := by
  cases a <;> nofun

/-- The word of a command holds its strategy and its IRQ_EN. -/
@[simp] theorem Strategy.instr_inj {a' : Strategy} {b : Bool} : a.instr irqEn = a'.instr b ↔ a = a' ∧ irqEn = b := by
  constructor
  · intro h
    have hw : ctrlWordOf a.code irqEn true = ctrlWordOf a'.code b true := by simpa using congrArg encode h
    exact ⟨by simpa using congrArg algoField hw, by simpa using congrArg irqBit hw⟩
  · rintro ⟨rfl, rfl⟩
    rfl

end instr

/-! The rows of the opcode table (R81). -/

/-- A word is in a command's row when START is 1, no reserved bit is set and ALGO is the strategy's code. -/
theorem inRow_instr_iff (d : Word) (a : Strategy) (irqEn : Bool) :
    d &&& (a.instr irqEn).row.mask = (a.instr irqEn).row.pattern ↔
      startBit d = true ∧ rsvdLo d = 0 ∧ rsvdHi d = 0 ∧ algoField d = a.code := by
  obtain ⟨hstart, hirq, hlo, halgo, hhi⟩ : startBit 0xFFFFFFFD = true ∧ irqBit 0xFFFFFFFD = false ∧
      rsvdLo 0xFFFFFFFD = BitVec.allOnes 2 ∧ algoField 0xFFFFFFFD = BitVec.allOnes 4 ∧
      rsvdHi 0xFFFFFFFD = BitVec.allOnes 24 := by decide
  rw [row_instr, word_eq_iff_fields]
  simp only [startBit_and, irqBit_and, rsvdLo_and, algoField_and, rsvdHi_and, hstart, hirq, hlo, halgo, hhi,
    BitVec.and_allOnes, Bool.and_true, Bool.and_false, fields_ctrlWordOf]
  tauto

/-- A word is in the row of CTRL.SET when START is 0 (R79). -/
theorem inRow_ctrlSet_iff (d : Word) (irqEn : Bool) (algo : BitVec 4) :
    d &&& (Instr.ctrlSet irqEn algo).row.mask = (Instr.ctrlSet irqEn algo).row.pattern ↔ startBit d = false := by
  have hrow : (Instr.ctrlSet irqEn algo).row = ⟨ctrlWordOf 0 false true, ctrlWordOf 0 false false⟩ := rfl
  rw [hrow, word_eq_iff_fields]
  simp [startBit_and, irqBit_and, rsvdLo_and, algoField_and, rsvdHi_and]

/-! The decoder, answer by answer (R81). -/

/-- A code names no strategy when it is 8 or more (R73). -/
theorem Strategy.ofCode_eq_none_iff (c : BitVec 4) : Strategy.ofCode c = none ↔ 8 ≤ c.toNat := by
  revert c
  decide

section decodeWord
variable (d : Word)

/-- A word decodes to a command when START is 1, no reserved bit is set and ALGO is the code of its strategy. -/
theorem decodeWord_eq_instr_iff (a : Strategy) (irqEn : Bool) : decodeWord d = .ok (a.instr irqEn) ↔
    (startBit d = true ∧ rsvdLo d = 0 ∧ rsvdHi d = 0 ∧ algoField d = a.code) ∧ irqEn = irqBit d := by
  rcases decodeWord_cases d with ⟨hs, hd⟩ | ⟨hs, hr, hd⟩ | ⟨hs, hlo, hhi, hc, hd⟩ | ⟨a', hs, hlo, hhi, hc, hd⟩ <;> rw [hd]
  · have hne := (Strategy.instr_ne_ctrlSet a irqEn (irqBit d) (algoField d)).symm
    simp [hs, hne]
  · refine iff_of_false nofun ?_
    tauto
  · have hne : algoField d ≠ a.code := fun h => by simp [h] at hc
    simp [hne]
  · have hcode := Strategy.code_of_ofCode hc
    simp [hs, hlo, hhi, ← hcode, eq_comm (a := irqEn)]

theorem decodeWord_eq_ctrlSet_iff (irqEn : Bool) (algo : BitVec 4) : decodeWord d = .ok (.ctrlSet irqEn algo) ↔
    startBit d = false ∧ irqEn = irqBit d ∧ algo = algoField d := by
  rcases decodeWord_cases d with ⟨hs, hd⟩ | ⟨hs, -, hd⟩ | ⟨hs, -, -, -, hd⟩ | ⟨a, hs, -, -, -, hd⟩ <;> rw [hd]
  · simp [hs, eq_comm]
  · simp [hs]
  · simp [hs]
  · simp [hs]

theorem decodeWord_eq_rsvdBits_iff : decodeWord d = .error .rsvdBits ↔
    startBit d = true ∧ (rsvdLo d ≠ 0 ∨ rsvdHi d ≠ 0) := by
  rcases decodeWord_cases d with ⟨hs, hd⟩ | ⟨hs, hr, hd⟩ | ⟨-, hlo, hhi, -, hd⟩ | ⟨a, -, hlo, hhi, -, hd⟩ <;> rw [hd]
  · simp [hs]
  · simpa [hs] using hr
  · simp [hlo, hhi]
  · simp [hlo, hhi]

theorem decodeWord_eq_badAlgo_iff : decodeWord d = .error .badAlgo ↔
    startBit d = true ∧ rsvdLo d = 0 ∧ rsvdHi d = 0 ∧ 8 ≤ (algoField d).toNat := by
  rw [← Strategy.ofCode_eq_none_iff]
  rcases decodeWord_cases d with ⟨hs, hd⟩ | ⟨-, hr, hd⟩ | ⟨hs, hlo, hhi, hc, hd⟩ | ⟨a, -, -, -, hc, hd⟩ <;> rw [hd]
  · simp [hs]
  · refine iff_of_false nofun ?_
    tauto
  · simp [hs, hlo, hhi, hc]
  · simp [hc]

/-- The words that decode to an instruction are those of its row that hold its operands. -/
theorem decodeWord_eq_ok_iff (i : Instr) :
    decodeWord d = .ok i ↔ d &&& i.row.mask = i.row.pattern ∧ Machine.carriesFields i d := by
  obtain ⟨a, irqEn, rfl⟩ | ⟨irqEn, algo, rfl⟩ := i.command_or_ctrlSet
  · rw [decodeWord_eq_instr_iff, inRow_instr_iff, carriesFields_instr]
  · rw [decodeWord_eq_ctrlSet_iff, inRow_ctrlSet_iff]
    rfl

end decodeWord

/-- Settles O2: one equivalence for each answer of the decoder. -/
theorem decoderClassifiesEveryWord : Obligations.DecoderClassifiesEveryWord := fun d =>
  ⟨decodeWord_eq_ok_iff d, decodeWord_eq_rsvdBits_iff d, decodeWord_eq_badAlgo_iff d⟩

/-! The round trip. -/

/-- An instruction's word decodes to it: its fields are the operands. -/
theorem decodeWord_encode (i : Instr) : decodeWord (encode i) = .ok i := by
  obtain ⟨a, irqEn, rfl⟩ | ⟨irqEn, algo, rfl⟩ := i.command_or_ctrlSet
  · simp [decodeWord_eq_instr_iff]
  · simp [decodeWord_eq_ctrlSet_iff, encode]

/-- Decoding a word's bytes is decoding the word; the bytes that follow are left. -/
theorem decodeBytes_bytesOfWord_append {w : Word} {i : Instr} (h : decodeWord w = .ok i) (rest : List Byte) :
    decodeBytes (bytesOfWord w ++ rest) = .ok (i, rest) := by
  simp only [bytesOfWord, List.cons_append, List.nil_append, decodeBytes, wordOfBytes_extractLsb', h]

/-- Settles O1: by the word, and so by its bytes. -/
theorem decodeEncodeRoundTrip : Obligations.DecodeEncodeRoundTrip := fun i rest _ =>
  ⟨decodeWord_encode i, decodeBytes_bytesOfWord_append (decodeWord_encode i) rest⟩

/-- Settles O3: each word is evaluated. -/
theorem sampleWordsDecode : Obligations.SampleWordsDecode := by
  unfold Obligations.SampleWordsDecode
  decide

end Sys2Proof

/-! PROOFS. What the host writes to CTRL and STATUS: the words of the pseudo-instructions (O21), the step of an instruction's word (O4)
and of an illegal one (O5), and the acknowledgement of flags (O17). -/

namespace Sys2Proof.Machine

open Sys2Proof

/-! The pseudo-instructions. -/

/-- Settles O21, by the value of a CTRL word; BUF_LEN's product is taken modulo 2^32 by the registers' width. -/
theorem pseudoInstructionsSendTheirWords : Obligations.PseudoInstructionsSendTheirWords := by
  refine ⟨fun a irqEn => ⟨?_, toNat_ctrlWordOf a.code irqEn true⟩, fun code irqEn => ⟨rfl, toNat_ctrlWordOf code irqEn false⟩,
    fun w h t base => ?_⟩
  · rw [encode_instr]
    rfl
  · have hlen : w * h * 4 = BitVec.ofNat 32 (w.toNat * h.toNat * 4) := by
      simp [BitVec.ofNat_mul]
    rw [← hlen]
    rfl

/-! The writes of the host to CTRL and STATUS. -/

/-- Settles O4: the decoder's answer picks the instruction's arm. -/
theorem stepRunsDecodedInstruction : Obligations.StepRunsDecodedInstruction := by
  intro s d i rest hi hd
  rw [step_ctrl hi, ctrlStep, hd]
  rfl

/-- With BUSY = 0 the write of a word the decoder refuses is the rejection with the decoder's reason (R77, R78, R160). -/
theorem step_illegal_word {s : State} {d : Word} {e : WordError} {rest : List Event}
    (hi : s.inputs = .access (.wr .word 0x0C d) :: rest) (hb : s.busy = false) (hd : decodeWord d = .error e) :
    step s = .next (rejectedState (irqBit d) (algoField d) (wordErrCode e) { s with inputs := rest, resp := .written }) := by
  rw [step_ctrl hi, ctrlStep, hd]
  rcases issueIllegal_cases d e (s.taking rest) with ⟨hbusy, -⟩ | ⟨-, h⟩
  · cases hb.symm.trans hbusy
  · exact h

/-- Settles O5: which reason the decoder gives, and the rejection with it. -/
theorem illegalWordIsRejected : Obligations.IllegalWordIsRejected := by
  intro s d rest hi hb hstart
  constructor
  · intro hreserved
    exact step_illegal_word hi hb ((decodeWord_eq_rsvdBits_iff d).2 ⟨hstart, hreserved⟩)
  · intro hclear hcode
    obtain ⟨hlo, hhi⟩ := not_or.1 hclear
    exact step_illegal_word hi hb ((decodeWord_eq_badAlgo_iff d).2 ⟨hstart, not_ne_iff.1 hlo, not_ne_iff.1 hhi, hcode⟩)

/-- Settles O17: STATUS is a register other than CTRL, and its write is the law of the flags. -/
theorem statusWriteClearsFlags : Obligations.StatusWriteClearsFlags := by
  intro s d rest hi
  rw [step_regWrite (r := .status) (by decide) hi, State.regWrite, writeStatus_eq]
  rfl

end Sys2Proof.Machine

/-! PROOFS. The luminance weighter: how far the rounded sum of R88 can be from the exact sum, the integer form of R92 (O32), and from
it the range (O31) and the examples (O33). -/

namespace Sys2Proof.Machine

open Sys2Proof

/-! The error of a rounding. -/

/-- Up to 2^52 times a scale, rounding moves a value by at most half that scale: the nearest multiple of the scale is a binary64
value (R10). -/
theorem abs_rne64_sub_le_of_scale {v : Rat} {q : Int} (hq : -1074 ≤ q) (hq' : q ≤ 971) (hv : |v| ≤ 2 ^ 52 * 2 ^ q) :
    |rne64 v - v| ≤ 1 / 2 * 2 ^ q := by
  have hscale : (0 : Rat) < 2 ^ q := by positivity
  have hhalf := abs_nearestEven_sub_le (v / 2 ^ q)
  have hmult : InF64 (nearestEven (v / 2 ^ q) * 2 ^ q) := by
    rcases eq_or_ne (nearestEven (v / 2 ^ q)) 0 with hzero | hne
    · exact .inl (by rw [hzero, Int.cast_zero, zero_mul])
    · refine .inr ⟨_, q, hne, ?_, hq, hq', rfl⟩
      have hx : |v / 2 ^ q| ≤ 2 ^ 52 := by rwa [abs_div, abs_of_pos hscale, div_le_iff₀ hscale]
      have hlt : |(nearestEven (v / 2 ^ q) : Rat)| < 2 ^ 53 := by
        linarith [abs_sub_abs_le_abs_sub (nearestEven (v / 2 ^ q) : Rat) (v / 2 ^ q)]
      exact_mod_cast hlt
  calc |rne64 v - v| ≤ |nearestEven (v / 2 ^ q) * 2 ^ q - v| := rne64_nearest v hmult
    _ = |nearestEven (v / 2 ^ q) - v / 2 ^ q| * 2 ^ q := by
      rw [← abs_of_pos hscale, ← abs_mul, abs_of_pos hscale, sub_mul, div_mul_cancel₀ v hscale.ne']
    _ ≤ 1 / 2 * 2 ^ q := by gcongr

/-- The error of a rounding in the range of the luminances. -/
theorem abs_rne64_sub_le {v : Rat} (hv : |v| ≤ 512) : |rne64 v - v| ≤ 1 / 2 ^ 44 := by
  refine (abs_rne64_sub_le_of_scale (q := -43) (by decide) (by decide) (hv.trans ?_)).trans ?_ <;> norm_num [zpow_neg]

/-! The weighted sum. -/

/-- The exact sum of R92, in thousandths. -/
def lumThousandths (r g b : Byte) : Nat := 299 * r.toNat + 587 * g.toNat + 114 * b.toNat

theorem lumThousandths_le (r g b : Byte) : lumThousandths r g b ≤ 255000 := by
  have := r.isLt
  have := g.isLt
  have := b.isLt
  unfold lumThousandths
  omega

/-- A product of R88 is close to the exact one, where its coefficient is close to a number w of thousandths. -/
theorem abs_fmul_coef_sub_le {c : F64} {w : Rat} (hw₀ : 0 ≤ w) (hw₁ : w ≤ 1000) (hc : |c - w / 1000| ≤ 1 / 2 ^ 54) (x : Byte) :
    |fmul c (toF64 x.toNat) - w * x.toNat / 1000| ≤ 1 / 2 ^ 43 := by
  have hx : (x.toNat : Rat) ≤ 255 := by exact_mod_cast Nat.le_of_lt_succ x.isLt
  have hcoef : |c * x.toNat - w * x.toNat / 1000| ≤ 1 / 2 ^ 54 * 255 :=
    calc |c * x.toNat - w * x.toNat / 1000| = |c - w / 1000| * x.toNat := by
          rw [mul_div_right_comm, ← sub_mul, abs_mul, Nat.abs_cast]
      _ ≤ 1 / 2 ^ 54 * 255 := by gcongr
  have hexact : w * x.toNat ≤ 1000 * 255 := by gcongr
  have hnonneg : 0 ≤ w * x.toNat := by positivity
  rw [abs_le] at hcoef
  have hround : |fmul c (toF64 x.toNat) - c * x.toNat| ≤ 1 / 2 ^ 44 := by
    rw [toF64_natCast]
    exact abs_rne64_sub_le (abs_le.2 ⟨by linarith, by linarith⟩)
  rw [abs_le] at hround ⊢
  constructor <;> linarith

/-- A sum of R88 is close to the exact one, where its operands are. -/
theorem abs_fadd_sub_le {a b x y δ ε : Rat} (ha : |a - x| ≤ δ) (hb : |b - y| ≤ ε) (hδε : δ + ε ≤ 1) (h₀ : 0 ≤ x + y)
    (h₁ : x + y ≤ 255) : |fadd a b - (x + y)| ≤ δ + ε + 1 / 2 ^ 44 := by
  rw [abs_le] at ha hb
  have hround : |fadd a b - (a + b)| ≤ 1 / 2 ^ 44 := abs_rne64_sub_le (abs_le.2 ⟨by linarith, by linarith⟩)
  rw [abs_le] at hround ⊢
  constructor <;> linarith

/-- The rounded sum of R88 is within 2^-41 of the exact sum. -/
theorem abs_lumSum_sub_le (r g b : Byte) : |lumSum r g b - lumThousandths r g b / 1000| ≤ 1 / 2 ^ 41 := by
  have hred := abs_fmul_coef_sub_le (c := coefR) (w := 299) (by norm_num) (by norm_num)
    (by rw [abs_le]; norm_num [coefR, Rat.mkRat_eq_div]) r
  have hgreen := abs_fmul_coef_sub_le (c := coefG) (w := 587) (by norm_num) (by norm_num)
    (by rw [abs_le]; norm_num [coefG, Rat.mkRat_eq_div]) g
  have hblue := abs_fmul_coef_sub_le (c := coefB) (w := 114) (by norm_num) (by norm_num)
    (by rw [abs_le]; norm_num [coefB, Rat.mkRat_eq_div]) b
  have htotal : (299 * r.toNat + 587 * g.toNat + 114 * b.toNat : Rat) ≤ 255000 := by exact_mod_cast lumThousandths_le r g b
  have hr : (0 : Rat) ≤ r.toNat := Nat.cast_nonneg' _
  have hg : (0 : Rat) ≤ g.toNat := Nat.cast_nonneg' _
  have hb : (0 : Rat) ≤ b.toNat := Nat.cast_nonneg' _
  have hpartial := abs_fadd_sub_le hred hgreen (by norm_num) (by linarith) (by linarith)
  have hsum := abs_fadd_sub_le hpartial hblue (by norm_num) (by linarith) (by linarith)
  have hexact : (lumThousandths r g b / 1000 : Rat) =
      299 * r.toNat / 1000 + 587 * g.toNat / 1000 + 114 * b.toNat / 1000 := by
    unfold lumThousandths
    push_cast
    ring
  rw [hexact]
  exact hsum.trans (by norm_num)

/-! The rounding to an integer. -/

/-- roundHalfAway looks at the distance from the integer f below (R11). -/
theorem roundHalfAway_of_floor {s : Rat} {f : Int} (hlow : (f : Rat) ≤ s) (hhigh : s < f + 1) :
    roundHalfAway s = if 1 / 2 ≤ s - f then (f + 1).toNat else f.toNat := by
  have hfloor : ⌊s⌋ = f := Int.floor_eq_iff.2 ⟨hlow, hhigh⟩
  rw [← hfloor]
  rfl

/-- roundHalfAway gives the integer k on the values from k − 1/2 up to, but not at, k + 1/2 (R11, R89). -/
theorem roundHalfAway_eq {s : Rat} {k : Nat} (hlow : (k : Rat) - 1 / 2 ≤ s) (hhigh : s < k + 1 / 2) : roundHalfAway s = k := by
  rcases le_or_gt (k : Rat) s with habove | hbelow
  · rw [roundHalfAway_of_floor (f := k) (by push_cast; linarith) (by push_cast; linarith),
      if_neg (by push_cast; linarith), Int.toNat_natCast]
  · rw [roundHalfAway_of_floor (f := k - 1) (by push_cast; linarith) (by push_cast; linarith),
      if_pos (by push_cast; linarith), sub_add_cancel, Int.toNat_natCast]

/-- Away from a tie the exact sum is at least a thousandth from the boundary, further than the rounded sum can be off (R92). -/
theorem lum_of_not_tie {r g b : Byte} (h : lumThousandths r g b % 1000 ≠ 500) :
    lum r g b = (lumThousandths r g b + 500) / 1000 := by
  have herr := abs_le.1 (abs_lumSum_sub_le r g b)
  set n := lumThousandths r g b
  set k := (n + 500) / 1000
  have hlow : (1000 * k : Rat) ≤ n + 499 := by exact_mod_cast (show 1000 * k ≤ n + 499 by omega)
  have hhigh : (n : Rat) ≤ 1000 * k + 499 := by exact_mod_cast (show n ≤ 1000 * k + 499 by omega)
  exact roundHalfAway_eq (by linarith) (by linarith)

/-- At a tie the side of the boundary that the rounded sum falls on picks one of the two integers beside it (R92). -/
theorem lum_of_tie {r g b : Byte} (h : lumThousandths r g b % 1000 = 500) :
    lum r g b = lumThousandths r g b / 1000 ∨ lum r g b = (lumThousandths r g b + 500) / 1000 := by
  have herr := abs_le.1 (abs_lumSum_sub_le r g b)
  set n := lumThousandths r g b
  set k := n / 1000
  have hn : (n : Rat) = 1000 * k + 500 := by exact_mod_cast (show n = 1000 * k + 500 by omega)
  rcases lt_or_ge (lumSum r g b) (k + 1 / 2) with hbelow | habove
  · exact .inl (roundHalfAway_eq (by linarith) hbelow)
  · rw [show (n + 500) / 1000 = k + 1 by omega]
    exact .inr (roundHalfAway_eq (by push_cast; linarith) (by push_cast; linarith))

/-! The statements. -/

/-- Settles O32: away from ties, and at them. -/
theorem luminanceIntegerForm : Obligations.LuminanceIntegerForm := fun _ _ _ => ⟨lum_of_not_tie, lum_of_tie⟩

/-- Settles O31, by the integer form: the exact sum is at most 255000, and black and white are no ties. -/
theorem luminanceInRange : Obligations.LuminanceInRange := by
  refine ⟨fun r g b => ?_, lum_of_not_tie (by decide), lum_of_not_tie (by decide)⟩
  have hle := lumThousandths_le r g b
  rcases eq_or_ne (lumThousandths r g b % 1000) 500 with htie | hno
  · rcases lum_of_tie htie with h | h <;> omega
  · rw [lum_of_not_tie hno]
    omega

/-- Settles O33: the integer form gives the five examples that are no ties; the three ties turn on the last bit of the rounded sum,
which is evaluated. -/
theorem luminanceExamples : Obligations.LuminanceExamples :=
  ⟨by decide +kernel, by decide +kernel, by decide +kernel, lum_of_not_tie (by decide), lum_of_not_tie (by decide),
    lum_of_not_tie (by decide), lum_of_not_tie (by decide), lum_of_not_tie (by decide)⟩

end Sys2Proof.Machine

/-! PROOFS. What a pixel step stores, byte by byte, and the pixel step of a diffusion run (O37). -/

namespace Sys2Proof.Machine

open Sys2Proof

/-! The write of a pixel step, sample by sample (R51, R161). -/

/-- A byte of a pixel, from the pixel's address (R44). -/
theorem pixelByte_eq_read (m : Memory) (l : Latch) (p c : Nat) : pixelByte m l p c = m.read (l.pixelAddr p + c) := rfl

/-- The mask bit of channel c of a pixel write (R12). -/
def maskBit (x y z : Bool) : Nat → Bool
  | 0 => x
  | 1 => y
  | _ => z

@[simp] theorem maskBit_true (c : Nat) : maskBit true true true c = true := by
  unfold maskBit
  split <;> rfl

section wrotePixel
variable {p : Nat} {s : State} (x y z : Bool)

/-- An unmarked state stores the output in the samples under the mask, and leaves the others (R107, R161). -/
theorem pixelByte_wrotePixel_self (hmark : s.marked = false) (hwf : s.mem.wf = true)
    (hlim : s.lat.pixelAddr p + 4 ≤ memoryLimit) {c : Nat} (hc : c < 3) :
    pixelByte (wrotePixel p x y z s).mem s.lat p c =
      if maskBit x y z c = true then BitVec.ofNat 8 (stepOutput p s) else pixelByte s.mem s.lat p c := by
  have hbytes := storedBytes_of_unmarked (s := s.dropAnswer.dropAnswer) (by simpa using hmark) (s.lat.pixelAddr p)
    (BitVec.ofNat 8 (stepOutput p s))
  rw [wrotePixel_mem, hbytes, pixelByte_eq_read, pixelByte_eq_read, Memory.read_writeRgb _ _ _ _ _ _ _ _ hwf hlim]
  match c, hc with
  | 0, _ => simp [maskBit]
  | 1, _ => simp [maskBit]
  | 2, _ => simp [maskBit]

/-- The write of a pixel step leaves every other pixel (R52). -/
theorem pixelByte_wrotePixel_of_ne {q c : Nat} (hq : q ≠ p) (hc : c < 4) :
    pixelByte (wrotePixel p x y z s).mem s.lat q c = pixelByte s.mem s.lat q c := by
  refine wrotePixel_read_of_ne p x y z s ?_
  unfold Latch.pixelAddr
  omega

end wrotePixel

/-! The state of a pixel done. -/

/-- The state of a pixel step whose accesses are both answered, before the scan advances (R104 to R108, R128). -/
def donePixel (p : Nat) (s : State) : State :=
  if isDiffusion s.lat.strategy then (wrotePixel p true true true s).diffuse p (stepError p s)
  else wrotePixel p true true true s

section donePixel
variable (p : Nat) (s : State)

@[simp] theorem donePixel_mem : (donePixel p s).mem = (wrotePixel p true true true s).mem := by
  unfold donePixel
  split <;> rfl

@[simp] theorem donePixel_lat : (donePixel p s).lat = s.lat := by
  unfold donePixel
  split <;> simp

@[simp] theorem donePixel_done : (donePixel p s).done = s.done := by
  unfold donePixel
  split <;> simp

@[simp] theorem donePixel_err : (donePixel p s).err = s.err := by
  unfold donePixel
  split <;> simp

@[simp] theorem donePixel_faultAddr : (donePixel p s).faultAddr = s.faultAddr := by
  unfold donePixel
  split <;> simp

/-- A diffusion pixel distributes its error into ERRBUF (R108). -/
theorem donePixel_errbuf (hd : isDiffusion s.lat.strategy = true) : (donePixel p s).errbuf =
    distribute s.params.productForm s.lat.wN s.lat.hN (s.lat.xOf p) (s.lat.yOf p) (stepError p s) (kernelOf s.lat.strategy)
      s.errbuf := by
  simp [donePixel, hd]

end donePixel

/-- What the ENGINE's move does where a pixel step is enabled in memory (R145): an abort after the read, an abort after the write under
some mask, or the pixel done. -/
theorem pixelStep_enabled_cases {s t : State} (hen : s.engineEnabled = true) (hstep : pixelStep s = .next t) :
    s.lat.pixelAddr s.scanP + 4 ≤ memoryLimit ∧
    (t = s.dropAnswer.abort (s.lat.pixelAddr s.scanP) ∨
     (∃ x y z, t = (wrotePixel s.scanP x y z s).abort (s.lat.pixelAddr s.scanP)) ∨
     t = finishPixel s.scanP (.ok (donePixel s.scanP s))) := by
  rcases pixelStep_cases s with ⟨hdis, -⟩ | ⟨-, -, h⟩ | ⟨-, hlim, h⟩
  · cases hdis.symm.trans hen
  · cases h.symm.trans hstep
  · cases h.symm.trans hstep
    refine ⟨hlim, ?_⟩
    rcases computePixel_cases s.scanP s with ⟨x, y, z, -, hc⟩ | ⟨-, x, y, z, -, hc⟩ | ⟨-, -, hc⟩ <;> rw [hc]
    · exact .inl rfl
    · exact .inr (.inl ⟨x, y, z, rfl⟩)
    · exact .inr (.inr rfl)

/-! The end of a pixel done: the scan advances, and the last pixel completes the run (R145, R146). -/

section finishPixel
variable (p : Nat) (s : State)

@[simp] theorem finishPixel_ok_mem : (finishPixel p (.ok s)).mem = s.mem := by
  simp only [finishPixel]
  split <;> simp

@[simp] theorem finishPixel_ok_scanP : (finishPixel p (.ok s)).scanP = p + 1 := by
  simp only [finishPixel]
  split <;> simp

@[simp] theorem finishPixel_ok_progress : (finishPixel p (.ok s)).progress = BitVec.ofNat 32 (p + 1) := by
  simp only [finishPixel]
  split <;> simp

@[simp] theorem finishPixel_ok_err : (finishPixel p (.ok s)).err = s.err := by
  simp only [finishPixel]
  split <;> simp

@[simp] theorem finishPixel_ok_faultAddr : (finishPixel p (.ok s)).faultAddr = s.faultAddr := by
  simp only [finishPixel]
  split <;> simp

theorem finishPixel_ok_done : (finishPixel p (.ok s)).done = (decide (p + 1 = s.lat.pixels) || s.done) := by
  simp only [finishPixel]
  split <;> simp [*]

end finishPixel

/-! The output of a pixel step, in the terms of the statements. -/

/-- The pixel a pixel step reads is the buffer's (R90). -/
theorem readLum_eq_pixelLum (p : Nat) (s : State) : readLum (s.lat.pixelAddr p) s = pixelLum s.mem s.lat p := rfl

theorem adjustedGray_eq (l : Nat) (e0 : F64) : adjustedGray l e0 = clampF64 (rne64 ((l : Rat) + e0)) 0 255 := by
  rw [adjustedGray, fadd, toF64_natCast]

theorem quantError_eq (g : F64) (out : Nat) : quantError g out = rne64 (g - (out : Rat)) := by
  rw [quantError, fsub, toF64_natCast]

section step
variable {p : Nat} {s : State}

/-- The output of a diffusion pixel step (R104, R105). -/
theorem stepOutput_diffusion (hd : isDiffusion s.lat.strategy = true) :
    stepOutput p s = binarize (adjustedGray (pixelLum s.mem s.lat p) (s.errAt p)) s.lat.t := by
  simp only [stepOutput, if_pos hd, readLum_eq_pixelLum]

/-- The output of an ordered pixel step (R125 to R127). -/
theorem stepOutput_ordered (hd : isDiffusion s.lat.strategy = false) :
    stepOutput p s = orderedOut s.lat.strategy s.lat.t (s.lat.xOf p) (s.lat.yOf p) (pixelLum s.mem s.lat p) := by
  simp only [stepOutput, hd, Bool.false_eq_true, if_false, readLum_eq_pixelLum]

end step

section answered
variable {s : State} {rest : List BusAnswer} (hrun : s.fsm = .run) (hmore : s.scanP + 1 < s.lat.pixels)
  (hmem : s.lat.base.toNat + 4 * s.lat.pixels ≤ 2 ^ 32) (hbus : s.busAnswers = .ok :: .ok :: rest)
include hbus

/-- The write of a pixel step takes the answers to its two accesses, and in an unmarked state draws nothing. -/
theorem wrotePixel_of_unmarked (hmark : s.marked = false) (p : Nat) (x y z : Bool) :
    wrotePixel p x y z s = { s with mem := (wrotePixel p x y z s).mem, busAnswers := rest } := by
  have hdrop : s.dropAnswer.dropAnswer = { s with busAnswers := rest } := by
    rw [dropAnswer_cons hbus, dropAnswer_cons rfl]
  have hmark' : ({ s with busAnswers := rest } : State).marked = false := hmark
  simp only [wrotePixel, hdrop, useStoredBytes_of_unmarked hmark', State.writePixel]

include hrun hmore hmem

/-- The ENGINE's move with both accesses answered and pixels left after this one (R145). -/
theorem pixelStep_of_answered : pixelStep s = .next ((donePixel s.scanP s).advance s.scanP) := by
  have hen : s.engineEnabled = true := (engineEnabled_iff s).2 ⟨hrun, by omega⟩
  have hlim : s.lat.pixelAddr s.scanP + 4 ≤ memoryLimit := by
    unfold Latch.pixelAddr memoryLimit
    omega
  have hwrite : s.dropAnswer.nextAnswer .write (s.lat.pixelAddr s.scanP) = .ok :=
    nextAnswer_cons (by rw [dropAnswer_cons hbus]) ..
  have hok : computePixel s.scanP s = .ok (donePixel s.scanP s) := computePixel_of_ok (nextAnswer_cons hbus ..) hwrite
  rw [pixelStep, if_pos hen, if_pos hlim, hok, finishPixel, if_neg (by rw [donePixel_lat]; omega)]

end answered

/-- Settles O37: the write stores the output, and the distribution reaches each neighbour once (R109). -/
theorem diffusionPixelStep : Obligations.DiffusionPixelStep := by
  intro s rest hrun hd hmark hwf hmore hlen hmem hbus p g out e w h
  have hlim : s.lat.pixelAddr p + 4 ≤ memoryLimit := by
    unfold Latch.pixelAddr memoryLimit
    omega
  have hout : stepOutput p s = out := by rw [stepOutput_diffusion hd, adjustedGray_eq, binarize_eq]
  have herror : stepError p s = e := by rw [stepError, hout, quantError_eq, readLum_eq_pixelLum, adjustedGray_eq]
  refine ⟨(wrotePixel p true true true s).mem, (donePixel p s).errbuf, ?_, fun c hc => ?_, fun x hx => ?_, fun k hk q hq => ?_,
    fun q hq => ?_⟩
  · rw [pixelStep_of_answered hrun hmore hmem hbus, donePixel, if_pos hd, wrotePixel_of_unmarked hbus hmark]
    rfl
  · rw [pixelByte_wrotePixel_self _ _ _ hmark hwf hlim hc, maskBit_true, if_pos rfl, hout]
  · have h0 := hx 0 (by decide)
    have h1 := hx 1 (by decide)
    have h2 := hx 2 (by decide)
    refine wrotePixel_read_of_ne p true true true s ?_
    unfold Latch.pixelAddr
    omega
  · have hq' : q < s.errbuf.length := hlen ▸ neighbour_lt hq
    have hold : s.errbuf[q]? = some (s.errAt q) := by simp [State.errAt, hq']
    have hreach : neighbour s.lat.wN s.lat.hN (s.lat.xOf p) (s.lat.yOf p) k = some q := hq
    rw [donePixel_errbuf p s hd, getElem?_distribute_of_reached _ _ _ hk (kernel_offsets_distinct _) hreach, herror, hold]
    rfl
  · rw [donePixel_errbuf p s hd]
    exact getElem?_distribute_of_not_reached _ _ _ _ _ _ _ _ _ hq

end Sys2Proof.Machine

/-! PROOFS. A run from its start: the output each of its pixels gets, and the scan that the ENGINE's steps make with them, whatever the
family, complete or aborted. From it the reference of a diffusion run (O55), the binary image of a complete one (O53) and its
determinism (O56). -/

namespace Sys2Proof.Machine

open Sys2Proof

/-! The reference scan. -/

section reference
variable (form : ProductForm) (w h : Nat) (t : F64) (ks : List KernelEntry) (lums : Nat → Nat)

/-- The adjusted gray of pixel n in the reference scan (R104). -/
def referenceGray (n : Nat) : F64 :=
  adjustedGray (lums n) (((referenceScan form w h t ks lums n).1[n]?).getD 0)

/-- One more pixel of the reference scan, in the terms of a pixel step (R104 to R108). -/
theorem referenceScan_succ (n : Nat) : referenceScan form w h t ks lums (n + 1) =
    let g := referenceGray form w h t ks lums n
    (distribute form w h (n % w) (n / w) (quantError g (binarize g t)) ks (referenceScan form w h t ks lums n).1,
      (referenceScan form w h t ks lums n).2 ++ [binarize g t]) := by
  simp only [referenceScan, referenceGray, adjustedGray_eq, quantError_eq, binarize_eq]

theorem length_referenceScan (n : Nat) : (referenceScan form w h t ks lums n).2.length = n := by
  induction n with
  | zero => rfl
  | succ n ih => simp [referenceScan_succ, ih]

/-- The outputs of the reference scan, pixel by pixel, however long it goes on (R105). -/
theorem getElem?_referenceScan {n p : Nat} (hp : p < n) :
    (referenceScan form w h t ks lums n).2[p]? = some (binarize (referenceGray form w h t ks lums p) t) := by
  induction n with
  | zero => cases hp
  | succ n ih =>
    have hlen := length_referenceScan form w h t ks lums n
    simp only [referenceScan_succ]
    rcases Nat.lt_succ_iff_lt_or_eq.1 hp with hlt | rfl
    · rw [List.getElem?_append_left (by omega), ih hlt]
    · rw [List.getElem?_append_right hlen.le, hlen, Nat.sub_self]
      rfl

/-- The reference scan of n pixels reads the luminances of those pixels only. -/
theorem referenceScan_congr {lums' : Nat → Nat} {n : Nat} (hl : ∀ p < n, lums p = lums' p) :
    referenceScan form w h t ks lums n = referenceScan form w h t ks lums' n := by
  induction n with
  | zero => rfl
  | succ n ih =>
    simp only [referenceScan_succ, referenceGray, ih fun p hp => hl p (Nat.lt_succ_of_lt hp), hl n n.lt_succ_self]

end reference

/-! The outputs of a run, from the state it starts in. -/

/-- The reference scan of the first n pixels of a diffusion run begun in a state (R103). -/
def State.reference (s : State) (n : Nat) : List F64 × List Nat :=
  referenceScan s.params.productForm s.lat.w.toNat s.lat.h.toNat s.lat.t (kernelOf s.lat.strategy) (pixelLum s.mem s.lat) n

/-- The ERRBUF of the reference scan after one more pixel (R106, R108). -/
theorem reference_succ_errbuf (s : State) (n : Nat) : (s.reference (n + 1)).1 =
    let g := adjustedGray (pixelLum s.mem s.lat n) (((s.reference n).1[n]?).getD 0)
    distribute s.params.productForm s.lat.wN s.lat.hN (s.lat.xOf n) (s.lat.yOf n) (quantError g (binarize g s.lat.t))
      (kernelOf s.lat.strategy) (s.reference n).1 := by
  rw [State.reference, referenceScan_succ]
  rfl

/-- The output of pixel p of a run begun in a state: the reference scan's, or that of the pixel's own luminance and position (R103,
R124). -/
def State.runOutput (s : State) (p : Nat) : Nat :=
  if isDiffusion s.lat.strategy then ((s.reference s.lat.pixels).2[p]?).getD 0
  else orderedOut s.lat.strategy s.lat.t (p % s.lat.w.toNat) (p / s.lat.w.toNat) (pixelLum s.mem s.lat p)

/-- The output of pixel p of a run, as the byte that is stored (R107, R127). -/
def State.runByte (s : State) (p : Nat) : Byte := BitVec.ofNat 8 (s.runOutput p)

section output
variable {s : State} {p : Nat}

theorem runOutput_ordered (hd : isDiffusion s.lat.strategy = false) : s.runOutput p =
    orderedOut s.lat.strategy s.lat.t (p % s.lat.w.toNat) (p / s.lat.w.toNat) (pixelLum s.mem s.lat p) := by
  simp [State.runOutput, hd]

/-- A diffusion run's output is that of a pixel step whose ERRBUF the reference scan has filled (R105). -/
theorem runOutput_diffusion (hd : isDiffusion s.lat.strategy = true) (hp : p < s.lat.pixels) : s.runOutput p =
    binarize (adjustedGray (pixelLum s.mem s.lat p) (((s.reference p).1[p]?).getD 0)) s.lat.t := by
  rw [State.runOutput, if_pos hd, State.reference, getElem?_referenceScan _ _ _ _ _ _ hp]
  rfl

/-- Every output of a run is black or white (R118, R134). -/
theorem runByte_cases (hp : p < s.lat.pixels) : s.runByte p = 0 ∨ s.runByte p = 255 := by
  have hbin : ∃ g t, s.runOutput p = binarize g t := by
    cases hd : isDiffusion s.lat.strategy with
    | false => exact ⟨_, _, runOutput_ordered hd⟩
    | true => exact ⟨_, _, runOutput_diffusion hd hp⟩
  obtain ⟨g, t, hout⟩ := hbin
  rw [State.runByte, hout]
  exact (binarize_cases g t).imp (fun h => by rw [h]; rfl) (fun h => by rw [h]; rfl)

end output

/-! The states that the ENGINE's steps lead to. -/

/-- What holds of a state that steps of the ENGINE alone have led to from the start of a run: unfinished, complete or aborted. -/
structure RunAt (s t : State) : Prop where
  inv : StateInv t
  leaves : EngineLeaves s t
  scanned : ScannedTo s.runByte s t
  no_fault_addr : t.err = false → t.faultAddr = 0
  errbuf : t.fsm = .run → isDiffusion s.lat.strategy = true → t.errbuf = (s.reference t.scanP).1

/-- A run begins with nothing scanned, and with the ERRBUF of zeros that the reference scan begins with (R103, R144). -/
theorem RunStart.runAt {s : State} (h : RunStart s) : RunAt s s where
  inv := h.inv
  leaves := .refl s
  scanned :=
    { scan_le := h.first.symm ▸ Nat.zero_le _
      progress := (h.inv.running h.running).progress_scan
      done_all := fun hdone => by simp [(h.inv.run_clean h.running).1] at hdone
      below := fun p c hp => by simp [h.first] at hp
      above := fun _ _ _ _ _ => rfl
      at_scan := fun _ _ _ => .inl rfl
      alpha := fun _ _ => rfl }
  no_fault_addr := fun _ => h.no_fault_addr
  errbuf := fun _ hd => by
    rw [h.errbuf_zero hd, h.first]
    rfl

/-- The ENGINE never writes an A byte (R52). -/
theorem EngineLeaves.alpha {s t : State} (h : EngineLeaves s t) (p : Nat) :
    pixelByte t.mem s.lat p 3 = pixelByte s.mem s.lat p 3 :=
  h.bytes _ fun q c _ hc => by omega

section running
variable {s t : State} (hs : RunStart s) (h : RunAt s t) (hrun : t.fsm = .run)

section
include h hrun

theorem RunAt.scan_inside : t.scanP < s.lat.pixels := h.leaves.lat ▸ (h.inv.running hrun).scan_inside

/-- While a run is unfinished, its next pixel holds the bytes of the start (R147). -/
theorem RunAt.next_pixel {c : Nat} (hc : c < 3) : pixelByte t.mem s.lat t.scanP c = pixelByte s.mem s.lat t.scanP c := by
  rcases h.scanned.at_scan c (h.scan_inside hrun) hc with hold | ⟨herr, -⟩
  · exact hold
  · cases herr.symm.trans (h.inv.run_clean hrun).2

theorem RunAt.next_lum : pixelLum t.mem t.lat t.scanP = pixelLum s.mem s.lat t.scanP := by
  simp only [pixelLum, h.leaves.lat, h.next_pixel hrun (c := 0) (by decide), h.next_pixel hrun (c := 1) (by decide),
    h.next_pixel hrun (c := 2) (by decide)]

/-- The next pixel's output is the one its run gives it from the start (R103, R124). -/
theorem RunAt.stepOutput_eq : stepOutput t.scanP t = s.runOutput t.scanP := by
  cases hd : isDiffusion s.lat.strategy with
  | false =>
    rw [stepOutput_ordered (by rwa [h.leaves.lat]), runOutput_ordered hd, h.next_lum hrun, h.leaves.lat]
    rfl
  | true =>
    rw [stepOutput_diffusion (by rwa [h.leaves.lat]), runOutput_diffusion hd (h.scan_inside hrun), h.next_lum hrun,
      State.errAt, h.errbuf hrun hd, h.leaves.lat]

/-- The next pixel's error goes where the reference scan sends it (R106, R108). -/
theorem RunAt.donePixel_errbuf (hd : isDiffusion s.lat.strategy = true) :
    (donePixel t.scanP t).errbuf = (s.reference (t.scanP + 1)).1 := by
  have hparams : t.params = s.params := (congrArg State.params h.leaves.beside :)
  rw [Machine.donePixel_errbuf _ _ (by rwa [h.leaves.lat]), stepError, h.stepOutput_eq hrun,
    runOutput_diffusion hd (h.scan_inside hrun), readLum_eq_pixelLum, h.next_lum hrun, State.errAt, h.errbuf hrun hd,
    h.leaves.lat, hparams, reference_succ_errbuf]

/-- An abort leaves the scan where it is: each sample of its pixel is old or the output (R161). -/
theorem RunAt.scanned_abort {u : State} (a : Nat) (hscan : u.scanP = t.scanP) (hprogress : u.progress = t.progress)
    (hdone : u.done = t.done) (hleaves : EngineLeaves s (u.abort a))
    (hself : ∀ c < 3, pixelByte u.mem s.lat t.scanP c = pixelByte t.mem s.lat t.scanP c ∨
      pixelByte u.mem s.lat t.scanP c = s.runByte t.scanP)
    (hother : ∀ q c, q ≠ t.scanP → c < 3 → pixelByte u.mem s.lat q c = pixelByte t.mem s.lat q c) :
    ScannedTo s.runByte s (u.abort a) where
  scan_le := by simpa [hscan] using h.scanned.scan_le
  progress := by simpa [hscan, hprogress] using h.scanned.progress
  done_all := by simp [hdone, (h.inv.run_clean hrun).1]
  below q c hq hc := by
    rw [State.abort_scanP, hscan] at hq
    rw [State.abort_mem, hother q c hq.ne hc, h.scanned.below q c hq hc]
  above q c hq hqs hc := by
    rw [State.abort_scanP, hscan] at hq
    rw [State.abort_mem, hother q c hq.ne' hc, h.scanned.above q c hq hqs hc]
  at_scan c _ hc := by
    rw [State.abort_scanP, hscan, State.abort_mem, ← h.next_pixel hrun hc]
    exact (hself c hc).imp_right fun hout => ⟨State.abort_err _ _, hout⟩
  alpha p _ := hleaves.alpha p

end

include hs h hrun

/-- What a pixel write under a mask leaves in the next pixel's samples (R51, R161). -/
theorem RunAt.next_pixel_wrote (hlim : t.lat.pixelAddr t.scanP + 4 ≤ memoryLimit) (x y z : Bool) {c : Nat} (hc : c < 3) :
    pixelByte (wrotePixel t.scanP x y z t).mem s.lat t.scanP c =
      if maskBit x y z c = true then s.runByte t.scanP else pixelByte t.mem s.lat t.scanP c := by
  have hmark : t.marked = false := (congrArg State.marked h.leaves.beside :).trans hs.unmarked
  have hself := pixelByte_wrotePixel_self x y z hmark h.inv.mem_wf hlim hc
  rwa [h.stepOutput_eq hrun, h.leaves.lat] at hself

/-- A pixel done moves the scan past its output (R145, R147). -/
theorem RunAt.scanned_done (hlim : t.lat.pixelAddr t.scanP + 4 ≤ memoryLimit)
    (hleaves : EngineLeaves s (finishPixel t.scanP (.ok (donePixel t.scanP t)))) :
    ScannedTo s.runByte s (finishPixel t.scanP (.ok (donePixel t.scanP t))) := by
  have hother (q c : Nat) (hq : q ≠ t.scanP) (hc : c < 3) :
      pixelByte (wrotePixel t.scanP true true true t).mem s.lat q c = pixelByte t.mem s.lat q c := by
    have hne := pixelByte_wrotePixel_of_ne (s := t) true true true hq (c := c) (by omega)
    rwa [h.leaves.lat] at hne
  exact
    { scan_le := by simpa using h.scan_inside hrun
      progress := by simp
      done_all := by simp [finishPixel_ok_done, (h.inv.run_clean hrun).1, h.leaves.lat]
      below := fun q c hq hc => by
        rw [finishPixel_ok_scanP] at hq
        rw [finishPixel_ok_mem, donePixel_mem]
        rcases Nat.lt_succ_iff_lt_or_eq.1 hq with hlt | rfl
        · rw [hother q c hlt.ne hc, h.scanned.below q c hlt hc]
        · rw [h.next_pixel_wrote hs hrun hlim _ _ _ hc, maskBit_true, if_pos rfl]
      above := fun q c hq hqs hc => by
        rw [finishPixel_ok_scanP] at hq
        rw [finishPixel_ok_mem, donePixel_mem, hother q c (by omega) hc, h.scanned.above q c (by omega) hqs hc]
      at_scan := fun c hqs hc => by
        rw [finishPixel_ok_scanP] at hqs
        rw [finishPixel_ok_scanP, finishPixel_ok_mem, donePixel_mem, hother _ c (by omega) hc]
        exact .inl (h.scanned.above _ c (by omega) hqs hc)
      alpha := fun p _ => hleaves.alpha p }

/-- A pixel step of a run leads to a state of the run, whether it aborts it or not (R145, R146, R161). -/
theorem RunAt.pixelStep_running : OnNext (RunAt s) (pixelStep t) := by
  intro t' hstep
  have hinv := h.inv.pixelStep t' hstep
  have hleaves := h.leaves.trans (pixelStep_leaves t t' hstep)
  have hen : t.engineEnabled = true := (engineEnabled_iff t).2 ⟨hrun, (h.inv.running hrun).scan_inside⟩
  obtain ⟨hlim, rfl | ⟨x, y, z, rfl⟩ | rfl⟩ := pixelStep_enabled_cases hen hstep
  · have hscanned := h.scanned_abort hrun (u := t.dropAnswer) _ (by simp) (by simp) (by simp) hleaves
      (fun c _ => .inl (by rw [State.dropAnswer_mem])) (fun q c _ _ => by rw [State.dropAnswer_mem])
    exact ⟨hinv, hleaves, hscanned, by simp, by simp⟩
  · have hscanned := h.scanned_abort hrun (u := wrotePixel t.scanP x y z t) _ (by simp) (by simp) (by simp) hleaves
      (fun c hc => by
        rw [h.next_pixel_wrote hs hrun hlim x y z hc]
        split
        · exact .inr rfl
        · exact .inl rfl)
      (fun q c hq hc => by
        have hne := pixelByte_wrotePixel_of_ne (s := t) x y z hq (c := c) (by omega)
        rwa [h.leaves.lat] at hne)
    exact ⟨hinv, hleaves, hscanned, by simp, by simp⟩
  · refine ⟨hinv, hleaves, h.scanned_done hs hrun hlim hleaves, fun _ => ?_, fun hgoes hd => ?_⟩
    · simpa using h.no_fault_addr (h.inv.run_clean hrun).2
    · rw [finishPixel_errbuf hgoes, finishPixel_ok_scanP]
      exact h.donePixel_errbuf hrun hd

end running

/-- What the ENGINE's move keeps, any number of its moves keep. -/
theorem engineSteps_keeps {P : State → Prop} (hstep : ∀ t, P t → OnNext P (pixelStep t)) {t : State} (h : P t) (k : Nat) :
    OnNext P (engineSteps k t) := by
  induction k generalizing t with
  | zero => exact (onNext_next ..).2 h
  | succ k ih =>
    intro u hu
    obtain ⟨v, htv, hvu⟩ := engineSteps_succ_eq_next.1 hu
    exact ih (hstep t h v htv) u hvu

/-- Whatever number of steps the ENGINE takes from the start of a run, the run's state is as its start determines it (R147). -/
theorem RunStart.engineSteps {s : State} (hs : RunStart s) (k : Nat) : OnNext (RunAt s) (engineSteps k s) := by
  refine engineSteps_keeps (fun t h => ?_) hs.runAt k
  cases hfsm : t.fsm with
  | idle => exact pixelStep_of_idle hfsm ▸ (onNext_next ..).2 h
  | run => exact h.pixelStep_running hs hfsm

/-- Settles O55: the states of the run, whose outputs are the reference scan's. -/
theorem diffusionRunMatchesReference : Obligations.DiffusionRunMatchesReference := by
  intro k s t hs hd hk outs
  have hbyte : s.runByte = fun p => BitVec.ofNat 8 ((outs[p]?).getD 0) := by
    funext p
    rw [State.runByte, State.runOutput, if_pos hd]
    rfl
  exact ⟨length_referenceScan .., hbyte ▸ (hs.engineSteps k t hk).scanned⟩

/-! Complete runs. -/

section complete
variable {s t : State} (h : RunAt s t) (hdone : t.done = true)
include h hdone

/-- After a complete run every pixel's samples hold its output (R146). -/
theorem RunAt.complete_sample {p c : Nat} (hp : p < s.lat.pixels) (hc : c < 3) :
    pixelByte t.mem s.lat p c = s.runByte p :=
  h.scanned.below p c (by rwa [h.scanned.done_all hdone]) hc

/-- The registers of an observation after a complete run (R146, R186). -/
theorem RunAt.complete_registers :
    t.err = false ∧ t.errcode = .none ∧ t.progress = BitVec.ofNat 32 s.lat.pixels ∧ t.faultAddr = 0 := by
  have herr : t.err = false := by
    cases herr : t.err with
    | false => rfl
    | true => exact absurd ⟨hdone, herr⟩ h.inv.flags.done_not_err
  exact ⟨herr, h.inv.flags.code_none herr, h.scanned.done_all hdone ▸ h.scanned.progress, h.no_fault_addr herr⟩

end complete

/-- Settles O53: the samples are the run's outputs, and the A bytes are never written. -/
theorem completeRunIsBinary : Obligations.CompleteRunIsBinary := by
  intro k s t hs hk hdone p hp
  have h := hs.engineSteps k t hk
  refine ⟨?_, h.leaves.alpha p⟩
  simp only [BinaryPixel, h.complete_sample hdone hp (c := 0) (by decide), h.complete_sample hdone hp (c := 1) (by decide),
    h.complete_sample hdone hp (c := 2) (by decide), true_and]
  exact runByte_cases hp

/-! Two runs. -/

/-- The bytes of a buffer are those of its pixels (R44, R45). -/
theorem bufferBytes_congr {m m' : Memory} {l : Latch}
    (h : ∀ p c, p < l.pixels → c < 4 → pixelByte m l p c = pixelByte m' l p c) :
    bufferBytes m l.base.toNat l.pixels = bufferBytes m' l.base.toNat l.pixels := by
  refine List.map_congr_left fun i hi => ?_
  have hi := List.mem_range.1 hi
  have hpixel := h (i / 4) (i % 4) (by omega) (by omega)
  rwa [pixelByte, pixelByte, show l.base.toNat + 4 * (i / 4) + i % 4 = l.base.toNat + i by omega] at hpixel

section two
variable {s₁ s₂ : State} (hlat : s₁.lat = s₂.lat) (hform : s₁.params.productForm = s₂.params.productForm)
  (hbytes : ∀ p c, p < s₁.lat.pixels → c < 4 → pixelByte s₁.mem s₁.lat p c = pixelByte s₂.mem s₁.lat p c)
include hlat hform hbytes

/-- The outputs of a run depend on its operands, the product form and the buffer alone (R118, R134). -/
theorem runByte_congr {p : Nat} (hp : p < s₁.lat.pixels) : s₁.runByte p = s₂.runByte p := by
  have hlum (q : Nat) (hq : q < s₁.lat.pixels) : pixelLum s₁.mem s₁.lat q = pixelLum s₂.mem s₁.lat q := by
    simp only [pixelLum, hbytes q 0 hq (by decide), hbytes q 1 hq (by decide), hbytes q 2 hq (by decide)]
  have hscan : s₁.reference s₁.lat.pixels = s₂.reference s₂.lat.pixels := by
    rw [State.reference, State.reference, ← hlat, ← hform, referenceScan_congr _ _ _ _ _ _ hlum]
  rw [State.runByte, State.runByte, State.runOutput, State.runOutput, hscan, hlum p hp, hlat]

/-- Two complete runs from such starts leave the same buffer. -/
theorem complete_buffer_congr {t₁ t₂ : State} (h₁ : RunAt s₁ t₁) (h₂ : RunAt s₂ t₂) (hdone₁ : t₁.done = true)
    (hdone₂ : t₂.done = true) {p c : Nat} (hp : p < s₁.lat.pixels) (hc : c < 4) :
    pixelByte t₁.mem s₁.lat p c = pixelByte t₂.mem s₁.lat p c := by
  rcases Nat.lt_succ_iff_lt_or_eq.1 hc with hsample | rfl
  · rw [h₁.complete_sample hdone₁ hp hsample, runByte_congr hlat hform hbytes hp, hlat,
      h₂.complete_sample hdone₂ (hlat ▸ hp) hsample]
  · rw [h₁.leaves.alpha p, hbytes p 3 hp (by decide), hlat, h₂.leaves.alpha p]

end two

/-- Settles O56: the buffer by its pixels' outputs and A bytes, the registers as completion leaves them. -/
theorem sameInputsSameObservation : Obligations.SameInputsSameObservation := by
  intro k₁ k₂ s₁ s₂ t₁ t₂ hs₁ hs₂ hlat hform hmem hk₁ hdone₁ hk₂ hdone₂
  have h₁ := hs₁.engineSteps k₁ t₁ hk₁
  have h₂ := hs₂.engineSteps k₂ t₂ hk₂
  have hbytes (p c : Nat) (hp : p < s₁.lat.pixels) (hc : c < 4) :
      pixelByte s₁.mem s₁.lat p c = pixelByte s₂.mem s₁.lat p c := hmem _ (by omega) (by omega)
  have hbuffer := bufferBytes_congr fun p c hp hc => complete_buffer_congr hlat hform hbytes h₁ h₂ hdone₁ hdone₂ hp hc
  obtain ⟨herr₁, hcode₁, hprogress₁, hfault₁⟩ := h₁.complete_registers hdone₁
  obtain ⟨herr₂, hcode₂, hprogress₂, hfault₂⟩ := h₂.complete_registers hdone₂
  simp [observe, observeBuffer, h₁.leaves.lat, h₂.leaves.lat, ← hlat, hbuffer, hdone₁, hdone₂, herr₁, herr₂, hcode₁, hcode₂,
    hprogress₁, hprogress₂, hfault₁, hfault₂]

end Sys2Proof.Machine

/-! PROOFS. The arithmetic of the diffusion: thresholds out of range (O34), the pixels a kernel reaches (O36), the fraction constants
(O27), the weights' totals (O29), and the two product forms (O28). -/

namespace Sys2Proof.Machine

open Sys2Proof

/-- Settles O34: the clamped sum is in 0..255. -/
theorem diffusionThresholdExtremes : Obligations.DiffusionThresholdExtremes := by
  intro l e0 t
  obtain ⟨hlow, hhigh⟩ := adjustedGray_mem l e0
  rw [binarize_eq]
  exact ⟨fun ht => if_pos (ht.trans_le hlow), fun ht => if_neg (not_lt.2 (hhigh.trans ht))⟩

/-! The kernels. -/

/-- The column and the row of a pixel that an entry reaches (R108). -/
theorem neighbour_column_row {w h x y q : Nat} {k : KernelEntry} (hq : neighbour w h x y k = some q) :
    ((q % w : Nat) : Int) = x + k.dx ∧ ((q / w : Nat) : Int) = y + k.dy := by
  obtain ⟨hx0, hxw, hy0, -, rfl⟩ := neighbour_eq_some.1 hq
  lift (x : Int) + k.dx to Nat using hx0 with X
  lift (y : Int) + k.dy to Nat using hy0 with Y
  have hX : X < w := by exact_mod_cast hxw
  have hq' : ((Y : Int) * w + X).toNat = Y * w + X := by omega
  rw [hq', Nat.mul_add_mod_of_lt hX, Nat.add_comm, Nat.add_mul_div_right _ _ (by omega), Nat.div_eq_of_lt hX, Nat.zero_add]
  exact ⟨rfl, rfl⟩

/-- Settles O36: the column and the row of the pixel reached, and every entry points ahead. -/
theorem kernelReachesOnlyLaterPixels : Obligations.KernelReachesOnlyLaterPixels := by
  intro a k w h x y q hk hx hq
  obtain ⟨-, -, hdy0, hdy2, hahead⟩ := kernel_offsets_ahead a k hk
  obtain ⟨hcol, hrow⟩ := neighbour_column_row hq
  refine ⟨?_, neighbour_lt hq, hcol, hrow, by omega⟩
  have hq' := Nat.div_add_mod q w
  rcases hdy0.eq_or_lt with hsame | hbelow
  · have hrow' : q / w = y := by omega
    rw [hrow', mul_comm] at hq'
    omega
  · have hrow' : w * (y + 1) ≤ w * (q / w) := Nat.mul_le_mul_left w (by omega)
    rw [mul_add_one, mul_comm] at hrow'
    omega

/-! The weights. -/

/-- Settles O27: each fraction is evaluated. -/
theorem fractionConstants : Obligations.FractionConstants := by
  unfold Obligations.FractionConstants
  decide +kernel

/-- Settles O29: the exact totals, and the binary64 fractions' by their constants. -/
theorem kernelWeightTotals : Obligations.KernelWeightTotals := by
  obtain ⟨-, -, -, -, -, h7, h5, h3, h1, g8, g4, g2, g1⟩ := fractionConstants
  refine ⟨?_, ?_, ?_, ?_, ?_, ?_⟩
  · norm_num [kernelFs]
  · norm_num [kernelAtk]
  · norm_num [kernelJjn]
  · norm_num [kernelStk]
  · norm_num [kernelJjn, h7, h5, h3, h1, Rat.mkRat_eq_div]
  · norm_num [kernelStk, g8, g4, g2, g1, Rat.mkRat_eq_div]

/-! The product forms. -/

/-- Dividing by a power of two commutes with the rounding of a positive value, where the quotient is not subnormal (R10). -/
theorem rne64_div_two_pow_of_pos {v : Rat} {j : Nat} (hv : 0 < v) (hnormal : (2 : Rat) ^ (-1022 : Int) ≤ v / 2 ^ j) :
    rne64 (v / 2 ^ j) = rne64 v / 2 ^ j := by
  obtain ⟨x, q, h, rfl⟩ := exists_inBinade hv
  have hshift (z : Rat) : z * 2 ^ q / 2 ^ j = z * 2 ^ (q - j) := by
    rw [zpow_sub₀ two_ne_zero, zpow_natCast, mul_div_assoc]
  rw [hshift] at hnormal
  have hscale : -1074 ≤ q - j := by
    have hp : (2 : Rat) ^ (-1022 : Int) < 2 ^ (53 + (q - j)) := by
      rw [zpow_add₀ two_ne_zero, zpow_ofNat]
      exact hnormal.trans_lt (mul_lt_mul_of_pos_right h.lt (by positivity))
    have := (zpow_lt_zpow_iff_right₀ one_lt_two).1 hp
    omega
  have hlow : InBinade x (q - j) :=
    { pos := h.pos
      lt := h.lt
      scale_ge := hscale
      normal := by
        rcases h.normal with hx | hq
        · exact .inl hx
        · exact .inr (by omega) }
  rw [h.rne64_eq, hshift, hshift, hlow.rne64_eq]

/-- Dividing by a power of two commutes with rounding, where the quotient is not subnormal (R10, R117). -/
theorem rne64_div_two_pow {v : Rat} {j : Nat} (hnormal : (2 : Rat) ^ (-1022 : Int) ≤ |v / 2 ^ j|) :
    rne64 (v / 2 ^ j) = rne64 v / 2 ^ j := by
  rcases lt_trichotomy v 0 with hv | rfl | hv
  · have hneg : |v / 2 ^ j| = -v / 2 ^ j := by rw [abs_of_neg (div_neg_of_neg_of_pos hv (by positivity)), neg_div]
    have h := rne64_div_two_pow_of_pos (neg_pos.2 hv) (hneg ▸ hnormal)
    rwa [neg_div, rne64_neg, rne64_neg, neg_div, neg_inj] at h
  · simp
  · exact rne64_div_two_pow_of_pos hv (by rwa [abs_of_pos (by positivity)] at hnormal)

/-- A fraction over a power of two is a binary64 value (R101). -/
theorem frac_two_pow {num j : Nat} (hnum : num < 2 ^ 53) (hj : j ≤ 1074) : frac num (2 ^ j) = num / 2 ^ j := by
  have hquot : fdiv (toF64 num) (toF64 (2 ^ j : Nat)) = rne64 ((num : Rat) / 2 ^ j) := by
    rw [fdiv, toF64_natCast, toF64_natCast, Nat.cast_pow, Nat.cast_ofNat]
  rw [frac, hquot]
  refine rne64_of_inF64 ?_
  rcases Nat.eq_zero_or_pos num with rfl | hpos
  · exact .inl (by simp)
  · refine .inr ⟨num, -j, by omega, by rw [Nat.abs_cast]; exact_mod_cast hnum, by omega, by omega, ?_⟩
    rw [zpow_neg, zpow_natCast, Int.cast_natCast, div_eq_mul_inv]

/-- With a weight over a power of two, both product forms give the correctly rounded product, where that is not subnormal (R117). -/
theorem contrib_two_pow {e : F64} {k : KernelEntry} {j : Nat} (hden : k.den = 2 ^ j) (hj : j ≤ 1074) (hnum : k.num < 2 ^ 53)
    (hnormal : (2 : Rat) ^ (-1022 : Int) ≤ |e * k.num / k.den|) (form : ProductForm) :
    contrib form e k = rne64 (e * k.num / k.den) := by
  have hden' : (k.den : Rat) = 2 ^ j := by rw [hden, Nat.cast_pow, Nat.cast_ofNat]
  rw [hden'] at hnormal ⊢
  cases form with
  | fractionConstant =>
    simp only [contrib]
    rw [hden, frac_two_pow hnum hj, fmul, mul_div_assoc]
  | mulThenDiv =>
    simp only [contrib]
    rw [fdiv, fmul, toF64_natCast, toF64_natCast, hden', ← rne64_div_two_pow hnormal, rne64_rne64]

/-- The weights of Floyd–Steinberg and Atkinson are over powers of two (R97, R98). -/
theorem dyadic_weights : ∀ k ∈ kernelFs ++ kernelAtk, (k.den = 2 ^ 4 ∨ k.den = 2 ^ 3) ∧ k.num < 2 ^ 53 := by decide

/-- Settles O28: over a power of two both forms round once; the rule's examples are evaluated. -/
theorem productFormsAgreeForDyadicKernels : Obligations.ProductFormsAgreeForDyadicKernels := by
  refine ⟨fun e k hk hnormal => ?_, ?_, ?_, ?_, ?_⟩
  · obtain ⟨hden | hden, hnum⟩ := dyadic_weights k (List.mem_append.2 hk)
    all_goals rw [contrib_two_pow hden (by decide) hnum hnormal, contrib_two_pow hden (by decide) hnum hnormal]
  all_goals decide +kernel

end Sys2Proof.Machine

/-! PROOFS. The ordered family: the run, pixel by pixel (O54), the matrices (O30), the pixel step (O38), and the comparison of R127
as an integer test (O35): the exact threshold keeps a distance from every integer that the roundings of R126 cannot cross. -/

namespace Sys2Proof.Machine

open Sys2Proof

/-- Settles O54: the states of the run, whose outputs are those of each pixel's own luminance and position. -/
theorem orderedRunMatchesPixelwise : Obligations.OrderedRunMatchesPixelwise := by
  intro k s t hs hd hk
  have hbyte : s.runByte = fun p => BitVec.ofNat 8
      (orderedOut s.lat.strategy s.lat.t (p % s.lat.w.toNat) (p / s.lat.w.toNat) (pixelLum s.mem s.lat p)) := by
    funext p
    rw [State.runByte, runOutput_ordered hd]
  exact hbyte ▸ (hs.engineSteps k t hk).scanned

/-! The matrices. -/

/-- Settles O30: the four matrices are evaluated. -/
theorem matricesArePermutations : Obligations.MatricesArePermutations := by
  intro a hd
  cases a with
  | atk | fs | jjn | stk => cases hd
  | bayer2 | bayer4 | bayer8 | clust4 => decide

section ordered
variable {a : Strategy} (hd : isDiffusion a = false)
include hd

theorem sideOf_pos : 0 < sideOf a := by
  cases a with
  | atk | fs | jjn | stk => cases hd
  | bayer2 | bayer4 | bayer8 | clust4 => decide

/-- The lookup of R125 never leaves the matrix. -/
theorem matrixValue_mem (x y : Nat) : matrixValue a x y ∈ (matrixOf a).flatten := by
  obtain ⟨hrows, hcols, -⟩ := matricesArePermutations a hd
  have hy : y % sideOf a < (matrixOf a).length := (Nat.mod_lt y (sideOf_pos hd)).trans_eq hrows.symm
  have hrow := List.getElem_mem hy
  have hx : x % sideOf a < ((matrixOf a)[y % sideOf a]).length := (Nat.mod_lt x (sideOf_pos hd)).trans_eq (hcols _ hrow).symm
  have hvalue : matrixValue a x y = (matrixOf a)[y % sideOf a][x % sideOf a] := by
    simp [matrixValue, hy, hx]
  exact hvalue ▸ List.mem_flatten_of_mem hrow (List.getElem_mem hx)

theorem matrixValue_lt (x y : Nat) : matrixValue a x y < sideOf a * sideOf a := by
  obtain ⟨-, -, hperm⟩ := matricesArePermutations a hd
  exact List.mem_range.1 (hperm.mem_iff.1 (matrixValue_mem hd x y))

end ordered

/-! The pixel step. -/

theorem normalized_eq (n mv : Nat) : normalized n mv = rne64 (rne64 ((mv : Rat) / ((n : Rat) * n - 1)) * 255) := by
  simp [normalized, fmul, fdiv, toF64]

theorem adjustedThreshold_eq (t : F64) (n mv : Nat) :
    adjustedThreshold t n mv = rne64 (t + rne64 (normalized n mv - 255 / 2)) := rfl

theorem orderedOut_eq (a : Strategy) (t : F64) (x y l : Nat) : orderedOut a t x y l =
    if adjustedThreshold t (sideOf a) (matrixValue a x y) < (l : Rat) then 255 else 0 := by
  rw [orderedOut, binarize_eq, toF64_natCast]

/-- The write of a pixel step leaves every byte that is no sample of its pixel (R44, R52). -/
theorem wrotePixel_read_of_no_sample {p x : Nat} {s : State} (mr mg mb : Bool)
    (hx : ∀ c, c < 3 → x ≠ s.lat.base.toNat + 4 * p + c) : (wrotePixel p mr mg mb s).mem.read x = s.mem.read x := by
  have h0 := hx 0 (by decide)
  have h1 := hx 1 (by decide)
  have h2 := hx 2 (by decide)
  refine wrotePixel_read_of_ne p mr mg mb s ?_
  unfold Latch.pixelAddr
  omega

/-- Settles O38: the write stores the output, and nothing follows it but the advance of the scan. -/
theorem orderedPixelStep : Obligations.OrderedPixelStep := by
  intro s rest hrun hd hmark hwf hmore hmem hbus p n mv norm adjT out
  have hlim : s.lat.pixelAddr p + 4 ≤ memoryLimit := by
    unfold Latch.pixelAddr memoryLimit
    omega
  have hout : stepOutput p s = out := by
    rw [stepOutput_ordered hd, orderedOut_eq, adjustedThreshold_eq, normalized_eq]
    rfl
  refine ⟨(wrotePixel p true true true s).mem, ?_, fun c hc => ?_, fun x hx => wrotePixel_read_of_no_sample _ _ _ hx⟩
  · rw [pixelStep_of_answered hrun hmore hmem hbus, donePixel, hd, wrotePixel_of_unmarked hbus hmark]
    rfl
  · rw [pixelByte_wrotePixel_self _ _ _ hmark hwf hlim hc, maskBit_true, if_pos rfl, hout]

/-! The exact offset that a matrix value adds to the threshold. -/

/-- What a matrix value adds to the threshold in R126, without rounding. -/
def thresholdOffset (n mv : Nat) : Rat := (mv : Rat) * 255 / ((n : Rat) * n - 1) - 255 / 2

theorem integerBound_eq_ceil (n mv : Nat) : integerBound n mv = ⌈thresholdOffset n mv⌉ := rfl

/-- N²−1 divides 5355 = 42×127.5 for each side N of a matrix. -/
theorem exists_scale_of_ordered {a : Strategy} (hd : isDiffusion a = false) :
    ∃ j : Nat, ((sideOf a : Rat) * sideOf a - 1) * j = 5355 := by
  cases a with
  | atk | fs | jjn | stk => cases hd
  | bayer2 => exact ⟨1785, by norm_num [sideOf]⟩
  | bayer4 | clust4 => exact ⟨357, by norm_num [sideOf]⟩
  | bayer8 => exact ⟨85, by norm_num [sideOf]⟩

section scale
variable {n mv j : Nat} (hj : ((n : Rat) * n - 1) * j = 5355)
include hj

/-- The offset is an odd number of 42nds. -/
theorem thresholdOffset_eq_div : thresholdOffset n mv = ((2 * (j * mv : Nat) - 5355 : Int) : Rat) / (42 : Nat) := by
  have hne : (n : Rat) * n - 1 ≠ 0 := fun h => by norm_num [h] at hj
  have hmv : (mv : Rat) * 255 / ((n : Rat) * n - 1) = 2 * (j * mv) / 42 := by
    rw [div_eq_div_iff hne (by norm_num)]
    linear_combination -2 * (mv : Rat) * hj
  rw [thresholdOffset, hmv]
  push_cast
  ring

/-- The offset is at least a 42nd from every integer. -/
theorem le_abs_intCast_sub_thresholdOffset (z : Int) : 1 / 42 ≤ |(z : Rat) - thresholdOffset n mv| := by
  have hodd : 42 * z - (2 * (j * mv : Nat) - 5355) ≠ 0 := by omega
  have hone : (1 : Rat) ≤ |((42 * z - (2 * (j * mv : Nat) - 5355) : Int) : Rat)| := by exact_mod_cast Int.one_le_abs hodd
  have hscaled : (z : Rat) - thresholdOffset n mv = ((42 * z - (2 * (j * mv : Nat) - 5355) : Int) : Rat) / 42 := by
    rw [thresholdOffset_eq_div hj]
    push_cast
    ring
  rw [hscaled, abs_div, abs_of_pos (by norm_num : (0 : Rat) < 42)]
  gcongr

/-- K of R133 by integer division. -/
theorem integerBound_eq_div : integerBound n mv = -((5355 - 2 * (j * mv : Nat) : Int) / 42) := by
  rw [integerBound_eq_ceil, thresholdOffset_eq_div hj, Rat.ceil_intCast_div_natCast, neg_sub]
  rfl

end scale

/-! The error of the rounded threshold. -/

/-- The error of a rounding in the range of the thresholds. -/
theorem abs_rne64_sub_le_of_le_two_pow_32 {v : Rat} (hv : |v| ≤ 2 ^ 32) : |rne64 v - v| ≤ 1 / 2 ^ 21 := by
  refine (abs_rne64_sub_le_of_scale (q := -20) (by decide) (by decide) (hv.trans ?_)).trans ?_ <;> norm_num [zpow_neg]

section rounded
variable {n mv : Nat} (hmv : mv < n * n)
include hmv

/-- The fraction of R126 is in 0..1. -/
theorem matrixFraction_mem : (0 : Rat) ≤ mv / ((n : Rat) * n - 1) ∧ (mv : Rat) / ((n : Rat) * n - 1) ≤ 1 := by
  have hle : (mv : Rat) ≤ (n : Rat) * n - 1 := by
    have hle' : (mv : Rat) + 1 ≤ (n : Rat) * n := by exact_mod_cast hmv
    linarith
  have hden : (0 : Rat) ≤ (n : Rat) * n - 1 := (Nat.cast_nonneg' mv).trans hle
  exact ⟨by positivity, div_le_one_of_le₀ hle hden⟩

theorem abs_normalized_sub_le : |normalized n mv - mv * 255 / ((n : Rat) * n - 1)| ≤ 1 / 2 ^ 36 := by
  obtain ⟨hlow, hhigh⟩ := matrixFraction_mem hmv
  rw [normalized_eq, mul_div_right_comm]
  set f : Rat := mv / ((n : Rat) * n - 1)
  have hquot := abs_le.1 (abs_rne64_sub_le (v := f) (abs_le.2 ⟨by linarith, by linarith⟩))
  have hprod := abs_le.1 (abs_rne64_sub_le (v := rne64 f * 255) (abs_le.2 ⟨by linarith, by linarith⟩))
  rw [abs_le]
  constructor <;> linarith

/-- The threshold of R126 is within a 42nd of the exact one. -/
theorem abs_adjustedThreshold_sub_lt {t : Rat} (ht : |t| ≤ 2 ^ 31) :
    |adjustedThreshold t n mv - (t + thresholdOffset n mv)| < 1 / 42 := by
  obtain ⟨hlow, hhigh⟩ := matrixFraction_mem hmv
  have hnorm := abs_le.1 (abs_normalized_sub_le hmv)
  rw [adjustedThreshold_eq, thresholdOffset]
  rw [mul_div_right_comm] at hnorm ⊢
  set f : Rat := mv / ((n : Rat) * n - 1)
  rw [abs_le] at ht
  have hdiff := abs_le.1 (abs_rne64_sub_le (v := normalized n mv - 255 / 2) (abs_le.2 ⟨by linarith, by linarith⟩))
  set d := rne64 (normalized n mv - 255 / 2)
  have hsum := abs_le.1 (abs_rne64_sub_le_of_le_two_pow_32 (v := t + d) (abs_le.2 ⟨by linarith, by linarith⟩))
  rw [abs_lt]
  constructor <;> linarith

end rounded

/-- The comparison of R127 is the integer test of R133: the rounded threshold lies on the exact one's side of every integer. -/
theorem adjustedThreshold_lt_iff {n mv j l : Nat} {t : Int} (hj : ((n : Rat) * n - 1) * j = 5355) (hmv : mv < n * n)
    (ht : |(t : Rat)| ≤ 2 ^ 31) : adjustedThreshold t n mv < (l : Rat) ↔ integerBound n mv ≤ (l : Int) - t := by
  have hround := abs_lt.1 (abs_adjustedThreshold_sub_lt hmv ht)
  have hapart := le_abs_intCast_sub_thresholdOffset (mv := mv) hj ((l : Int) - t)
  rw [integerBound_eq_ceil, Int.ceil_le]
  push_cast at hapart ⊢
  rcases le_abs.1 hapart with habove | hbelow
  · exact iff_of_true (by linarith) (by linarith)
  · exact iff_of_false (by linarith) (by linarith)

theorem abs_toInt_le (t : Word) : |(t.toInt : Rat)| ≤ 2 ^ 31 := by
  have hlow := t.le_toInt
  have hhigh := t.toInt_lt
  have habs : |t.toInt| ≤ 2 ^ 31 := abs_le.2 ⟨by omega, by omega⟩
  exact_mod_cast habs

/-- Settles O35: the comparison, and the tables by integer division. -/
theorem orderedIntegerForm : Obligations.OrderedIntegerForm := by
  refine ⟨fun a t x y l hd _ => ?_, ?_, fun mv _ => ?_, ?_⟩
  · obtain ⟨j, hj⟩ := exists_scale_of_ordered hd
    have htest := adjustedThreshold_lt_iff (l := l) hj (matrixValue_lt hd x y) (abs_toInt_le t)
    simp only [orderedOut_eq, thresholdF64, toF64, htest]
  · rw [List.map_congr_left fun mv _ => integerBound_eq_div (mv := mv) (j := 1785) (by norm_num)]
    decide
  · rw [integerBound_eq_div (j := 357) (by norm_num)]
    omega
  · rw [List.map_congr_left fun mv _ => integerBound_eq_div (mv := mv) (j := 85) (by norm_num)]
    decide

end Sys2Proof.Machine

/-! PROOFS. The end of a run: what the last pixel leaves (O39), what the ENGINE's turn does (O42), and that every run ends (O52); and
the image that a diffusion run leaves as it is (O57). -/

namespace Sys2Proof.Machine

open Sys2Proof

/-! The last pixel. -/

section donePixel
variable (p : Nat) (s : State)

@[simp] theorem donePixel_irqEn : (donePixel p s).irqEn = s.irqEn := by
  unfold donePixel
  split <;> simp

@[simp] theorem donePixel_errcode : (donePixel p s).errcode = s.errcode := by
  unfold donePixel
  split <;> simp

end donePixel

/-- The ENGINE's move with both accesses answered, at the last pixel (R146). -/
theorem pixelStep_of_answered_last {s : State} {rest : List BusAnswer} (hrun : s.fsm = .run)
    (hlast : s.scanP + 1 = s.lat.pixels) (hmem : s.lat.base.toNat + 4 * s.lat.pixels ≤ 2 ^ 32)
    (hbus : s.busAnswers = .ok :: .ok :: rest) :
    pixelStep s = .next ((donePixel s.scanP s).advance s.scanP).complete := by
  have hen : s.engineEnabled = true := (engineEnabled_iff s).2 ⟨hrun, by omega⟩
  have hlim : s.lat.pixelAddr s.scanP + 4 ≤ memoryLimit := by
    unfold Latch.pixelAddr memoryLimit
    omega
  have hwrite : s.dropAnswer.nextAnswer .write (s.lat.pixelAddr s.scanP) = .ok :=
    nextAnswer_cons (by rw [dropAnswer_cons hbus]) ..
  have hok : computePixel s.scanP s = .ok (donePixel s.scanP s) := computePixel_of_ok (nextAnswer_cons hbus ..) hwrite
  rw [pixelStep, if_pos hen, if_pos hlim, hok, finishPixel, if_pos (by rw [donePixel_lat, hlast])]

/-- Settles O39: the state of the last pixel done, completed; an idle ENGINE then has no step. -/
theorem lastPixelCompletes : Obligations.LastPixelCompletes := by
  intro s rest hrun hlast hmem hbus
  have hrest := pixelStep_of_idle (State.complete_fsm ((donePixel s.scanP s).advance s.scanP))
  refine ⟨_, pixelStep_of_answered_last hrun hlast hmem hbus, ?_⟩
  simp [hlast, State.irq, hrest]

/-! The ENGINE's turn. -/

/-- What the ENGINE's move leaves where it ends the run it finds in a state (R146, R161). -/
structure EndsRun (s t : State) : Prop where
  idle : t.fsm = .idle
  not_busy : t.busy = false
  done_or_err : t.done = true ∨ t.err = true
  progress_of_done : t.done = true → t.progress = BitVec.ofNat 32 s.lat.pixels
  faultAddr_of_err : t.err = true → t.faultAddr = BitVec.ofNat 32 (s.lat.base.toNat + 4 * t.progress.toNat)

/-- During a run PROGRESS is SCAN.P as a number, since the buffer lies in memory (R27, R45). -/
theorem RunInv.toNat_progress {s : State} (h : RunInv s) : s.progress.toNat = s.scanP := by
  have hmem := h.buffer_in_memory
  have hscan := h.scan_inside
  unfold memoryLimit at hmem
  rw [h.progress_scan, BitVec.toNat_ofNat, Nat.mod_eq_of_lt (by omega)]

section running
variable {s : State} (h : StateInv s) (hrun : s.fsm = .run)
include h hrun

/-- An abort at the next pixel ends the run with ERR, FAULT_ADDR being that pixel's address (R161). -/
theorem StateInv.endsRun_abort {u : State} (hdone : u.done = s.done) (hprogress : u.progress = s.progress) :
    EndsRun s (u.abort (s.lat.pixelAddr s.scanP)) where
  idle := rfl
  not_busy := rfl
  done_or_err := .inr rfl
  progress_of_done := by simp [hdone, (h.run_clean hrun).1]
  faultAddr_of_err _ := by
    rw [State.abort_progress, hprogress, (h.running hrun).toNat_progress]
    rfl

/-- A pixel done ends the run with DONE, or moves the scan to the next pixel (R145, R146). -/
theorem StateInv.finishPixel_ok_cases {u : State} (hfsm : u.fsm = .run) (hlat : u.lat = s.lat) (herr : u.err = s.err) :
    (Machine.finishPixel s.scanP (.ok u)).fsm = .run ∨ EndsRun s (Machine.finishPixel s.scanP (.ok u)) := by
  have herr' : u.err = false := herr.trans (h.run_clean hrun).2
  simp only [Machine.finishPixel]
  split
  · rename_i hlast
    refine .inr ⟨rfl, rfl, .inl rfl, fun _ => ?_, by simp [herr']⟩
    rw [State.complete_progress, State.advance_progress, hlast, hlat]
  · exact .inl hfsm

/-- During a run the ENGINE's move goes on to the next pixel, or ends the run (R145, R148). -/
theorem StateInv.pixelStep_cases_of_run : ∃ t, Machine.pixelStep s = .next t ∧
    (t.fsm = .run ∧ t.scanP = s.scanP + 1 ∨ EndsRun s t) := by
  obtain ⟨t, hstep⟩ := h.pixelStep_answers
  have hen : s.engineEnabled = true := (engineEnabled_iff s).2 ⟨hrun, (h.running hrun).scan_inside⟩
  refine ⟨t, hstep, ?_⟩
  obtain ⟨-, rfl | ⟨x, y, z, rfl⟩ | rfl⟩ := pixelStep_enabled_cases hen hstep
  · exact .inr (h.endsRun_abort hrun (by simp) (by simp))
  · exact .inr (h.endsRun_abort hrun (by simp) (by simp))
  · have hdone : (donePixel s.scanP s).fsm = .run := by
      unfold donePixel
      split <;> simpa using hrun
    exact (h.finishPixel_ok_cases hrun hdone (by simp) (by simp)).imp_left fun hgoes => ⟨hgoes, by simp⟩

end running

theorem step_engine {s : State} {rest : List Event} (hi : s.inputs = .engine :: rest) :
    step s = pixelStep (s.withInputs rest) := step_cons hi

/-- On the ENGINE's turn the step is the pixel step of the state whose queue has lost that turn (R145, log 2). -/
theorem step_of_engine_turn {s : State} (h : s.inputs = [] ∨ s.inputs.head? = some .engine) :
    step s = pixelStep (s.withInputs s.inputs.tail) := by
  rcases h with hi | hhead
  · rw [step_nil hi, hi]
    congr 1
    rw [State.withInputs, List.tail_nil, ← hi]
  · obtain ⟨rest, hi⟩ := List.head?_eq_some_iff.1 hhead
    rw [step_engine hi, hi, List.tail_cons]

/-- Settles O42: the step is the pixel step, which an idle ENGINE does not have, and which goes on with a run or ends it. -/
theorem engineTurnIsItsPixelStep : Obligations.EngineTurnIsItsPixelStep := by
  intro s
  refine ⟨step_nil, fun rest => step_engine, fun hidle => ⟨fun hi => ?_, fun rest hi => ?_⟩, fun h hrun hturn => ?_⟩
  · rw [step_nil hi, pixelStep_of_idle hidle]
  · rw [step_engine hi]
    exact pixelStep_of_idle (s := s.withInputs rest) hidle
  · obtain ⟨t, hstep, hcases⟩ := (h.withInputs s.inputs.tail).pixelStep_cases_of_run hrun
    exact ⟨t, (step_of_engine_turn hturn).trans hstep, pixelStep_inputs hstep,
      hcases.imp_right fun hend => ⟨hend.idle, hend.done_or_err⟩⟩

/-! Every run ends. -/

/-- Where no event is left, the machine's steps are the ENGINE's (log 2). -/
theorem machineSteps_of_no_events {s : State} (hi : s.inputs = []) (k : Nat) : machineSteps k s = engineSteps k s := by
  induction k generalizing s with
  | zero => rfl
  | succ k ih =>
    rw [machineSteps, engineSteps, step_nil hi]
    cases hstep : pixelStep s with
    | next t => exact ih ((pixelStep_inputs hstep).trans hi)
    | fault f => rfl
    | refused r => rfl

/-- The ends of a run are told by its latches alone. -/
theorem EndsRun.congr_lat {s s' t : State} (h : EndsRun s t) (hlat : s.lat = s'.lat) : EndsRun s' t := by
  obtain ⟨hidle, hbusy, hflag, hprogress, hfault⟩ := h
  exact ⟨hidle, hbusy, hflag, hlat ▸ hprogress, hlat ▸ hfault⟩

/-- A run ends after at most as many moves of the ENGINE as pixels are left: each takes one pixel or ends the run (R148). -/
theorem StateInv.exists_end {s : State} (h : StateInv s) (hrun : s.fsm = .run) :
    ∃ k t, k ≤ s.lat.pixels - s.scanP ∧ Machine.engineSteps k s = .next t ∧ EndsRun s t := by
  have hinside := (h.running hrun).scan_inside
  induction hn : s.lat.pixels - s.scanP generalizing s with
  | zero => omega
  | succ n ih =>
    obtain ⟨t, hstep, ⟨hgoes, hscan⟩ | hend⟩ := h.pixelStep_cases_of_run hrun
    · have ht := h.pixelStep t hstep
      have hlat := (pixelStep_leaves s t hstep).lat
      obtain ⟨k, u, hk, hu, hend⟩ := ih ht hgoes (ht.running hgoes).scan_inside (by rw [hlat, hscan]; omega)
      exact ⟨k + 1, u, by omega, engineSteps_succ_eq_next.2 ⟨t, hstep, hu⟩, hend.congr_lat hlat⟩
    · exact ⟨1, t, by omega, engineSteps_succ_eq_next.2 ⟨t, hstep, rfl⟩, hend⟩

/-- Settles O52: the end of the run, the marks which the ENGINE never sets, and the machine's steps where no event is left. -/
theorem everyRunEnds : Obligations.EveryRunEnds := by
  intro s h hrun
  obtain ⟨k, t, hk, ht, hend⟩ := h.exists_end hrun
  have hmarked : t.marked = s.marked := (congrArg State.marked (engineSteps_leaves k s t ht).beside :)
  exact ⟨k, t, hk, ht, hend.idle, hend.not_busy, hend.done_or_err, hend.progress_of_done, hend.faultAddr_of_err,
    hmarked.trans, fun hi => (machineSteps_of_no_events hi k).trans ht⟩

/-! A binary image under diffusion (R152): each pixel's output is its luminance, so that no error ever arises. -/

/-- The distribution of a zero error leaves an ERRBUF of zeros as it is (R102, R108). -/
theorem distribute_zero_replicate (form : ProductForm) (w h x y n : Nat) (ks : List KernelEntry) :
    distribute form w h x y 0 ks (List.replicate n 0) = List.replicate n 0 := by
  unfold distribute
  induction ks with
  | nil => rfl
  | cons k ks ih =>
    have hentry : distributeEntry form w h x y 0 (List.replicate n 0) k = List.replicate n 0 := by
      refine List.ext_getElem? fun q => ?_
      rw [getElem?_distributeEntry, contrib_zero, List.getElem?_replicate]
      split <;> split <;> simp [fadd]
    rw [List.foldl_cons, hentry, ih]

/-- An ERRBUF of zeros holds 0 for every pixel. -/
theorem getD_getElem?_replicate_zero (n p : Nat) : ((List.replicate n (0 : F64))[p]?).getD 0 = 0 := by
  rw [List.getElem?_replicate]
  split <;> rfl

section binary
variable {s : State} (hd : isDiffusion s.lat.strategy = true) (ht₀ : 0 ≤ s.lat.t) (ht₁ : s.lat.t ≤ 254)

include ht₀ ht₁ in
/-- Between the thresholds a black or white pixel without accumulated error is its own output, and leaves no error (R104 to R106). -/
theorem binarize_black_or_white {l : Nat} (hl : l = 0 ∨ l = 255) :
    binarize (adjustedGray l 0) s.lat.t = l ∧ quantError (adjustedGray l 0) l = 0 := by
  have hgray : adjustedGray l 0 = (l : Rat) := by
    have hl' : l ≤ 255 := by omega
    have hround : rne64 (l : Rat) = l := (smallIntegersAreExact l (by rw [Nat.abs_cast]; omega)).1
    rw [adjustedGray_eq, add_zero, hround]
    exact clampF64_of_mem (by positivity) (by exact_mod_cast hl')
  rw [hgray, quantError_eq, sub_self, rne64_zero, binarize_eq]
  refine ⟨?_, rfl⟩
  rcases hl with rfl | rfl
  · exact if_neg (not_lt.2 ht₀)
  · exact if_pos (lt_of_le_of_lt ht₁ (by norm_num))

/-- A binary pixel's luminance is the value of its bytes, 0 or 255 (R91). -/
theorem BinaryPixel.pixelLum_eq {m : Memory} {l : Latch} {p : Nat} (h : BinaryPixel m l p) :
    (pixelLum m l p = 0 ∨ pixelLum m l p = 255) ∧ ∀ c < 3, pixelByte m l p c = BitVec.ofNat 8 (pixelLum m l p) := by
  obtain ⟨-, hblack, hwhite⟩ := luminanceInRange
  obtain ⟨h1, h2, h0⟩ := h
  have hbytes (c : Nat) (hc : c < 3) : pixelByte m l p c = pixelByte m l p 0 :=
    match c, hc with
    | 0, _ => rfl
    | 1, _ => h1
    | 2, _ => h2
  rcases h0 with h0 | h0
  · have hlum : pixelLum m l p = 0 := by rw [pixelLum, h1, h2, h0, hblack]
    exact ⟨.inl hlum, fun c hc => by rw [hbytes c hc, h0, hlum]; rfl⟩
  · have hlum : pixelLum m l p = 255 := by rw [pixelLum, h1, h2, h0, hwhite]
    exact ⟨.inr hlum, fun c hc => by rw [hbytes c hc, h0, hlum]; rfl⟩

variable (himage : ∀ p, p < s.lat.pixels → BinaryPixel s.mem s.lat p)
include ht₀ ht₁ himage

/-- Over a binary image the reference scan's ERRBUF stays zero (R106, R108). -/
theorem reference_errbuf_of_binary {n : Nat} (hn : n ≤ s.lat.pixels) : (s.reference n).1 = List.replicate s.lat.pixels 0 := by
  induction n with
  | zero => rfl
  | succ n ih =>
    obtain ⟨hout, herror⟩ := binarize_black_or_white ht₀ ht₁ (himage n hn).pixelLum_eq.1
    rw [reference_succ_errbuf, ih (by omega)]
    simp only [getD_getElem?_replicate_zero, hout, herror, distribute_zero_replicate]

include hd in
/-- Over a binary image the output of each pixel is the byte it holds (R152). -/
theorem runByte_of_binary {p c : Nat} (hp : p < s.lat.pixels) (hc : c < 3) : s.runByte p = pixelByte s.mem s.lat p c := by
  obtain ⟨hlum, hbytes⟩ := (himage p hp).pixelLum_eq
  rw [State.runByte, runOutput_diffusion hd hp, reference_errbuf_of_binary ht₀ ht₁ himage hp.le,
    getD_getElem?_replicate_zero, (binarize_black_or_white ht₀ ht₁ hlum).1, hbytes c hc]

end binary

/-- A run whose outputs are the bytes its buffer holds changes no byte of memory, however far it has come (R147, R161). -/
theorem RunAt.mem_read_eq {s t : State} (h : RunAt s t)
    (hfixed : ∀ p c, p < s.lat.pixels → c < 3 → s.runByte p = pixelByte s.mem s.lat p c) (a : Nat) :
    t.mem.read a = s.mem.read a := by
  by_cases ha : s.lat.noSample a
  · exact h.leaves.bytes a ha
  · simp only [Latch.noSample, not_forall, not_not] at ha
    obtain ⟨p, c, hp, hc, rfl⟩ := ha
    change pixelByte t.mem s.lat p c = pixelByte s.mem s.lat p c
    rcases lt_trichotomy p t.scanP with hlt | rfl | hgt
    · rw [h.scanned.below p c hlt hc, hfixed p c hp hc]
    · rcases h.scanned.at_scan c hp hc with hold | ⟨-, hout⟩
      · exact hold
      · rw [hout, hfixed _ c hp hc]
    · exact h.scanned.above p c hgt hp hc

/-- Settles O57: every output is the byte already there; and at mv = 0 a Bayer threshold of 127 falls below black. -/
theorem diffusionFixesBinaryImages : Obligations.DiffusionFixesBinaryImages := by
  refine ⟨fun k s t hs hd ht₀ ht₁ himage hk => ?_, ?_⟩
  · exact (hs.engineSteps k t hk).mem_read_eq fun p c => runByte_of_binary hd ht₀ ht₁ himage
  · have hint := orderedIntegerForm.1 .bayer2 127 0 0 0 rfl (by decide)
    have hbound : integerBound 2 0 = -127 := integerBound_eq_div (j := 1785) (by norm_num)
    change orderedOut .bayer2 127 0 0 0 = if integerBound 2 0 ≤ 0 - 127 then 255 else 0 at hint
    rw [hint, hbound]
    rfl

end Sys2Proof.Machine

/-! PROOFS. The commands of the host: acceptance (O6, O7), the interrupt after a command (O12), the launch of a run (O50), the first
command after reset (O23) and CTRL.SET (O10); what BUSY = 1 ignores (O11, O13); the registers, read (O15) and written (O16, O18). -/

namespace Sys2Proof.Machine

open Sys2Proof

/-! Acceptance. -/

/-- Acceptance over ordinary memory starts the run and nothing else (R144, R57). -/
theorem accept_of_ordinary {s : State} (h : s.bufferOrdinary = true) (a : Strategy) : s.accept a = s.startRun a := by
  simp [State.accept, h]

/-- A command with BUSY = 0, passing operands and a buffer in ordinary memory is accepted: the whole next state (R141, R144). -/
theorem exec_instr_of_pass {s : State} (hb : s.busy = false) (hargs : ArgsPass s) (hord : s.bufferOrdinary = true) (a : Strategy)
    (irqEn : Bool) : exec (a.instr irqEn) s = .next { startedState a (issuedState irqEn a.code s) with
      errbuf := if isDiffusion a then List.replicate (s.width.toNat * s.height.toNat) 0 else s.errbuf } := by
  rw [exec_instr, issueCommand_of_pass hb hargs, accept_of_ordinary (by simpa using hord)]
  rfl

/-- Settles O6: acceptance of each diffusion strategy, whose ERRBUF is cleared. -/
theorem diffusionCommandIsAccepted : Obligations.DiffusionCommandIsAccepted := fun _ irqEn hb hargs hord =>
  ⟨exec_instr_of_pass hb hargs hord .atk irqEn, exec_instr_of_pass hb hargs hord .fs irqEn,
    exec_instr_of_pass hb hargs hord .jjn irqEn, exec_instr_of_pass hb hargs hord .stk irqEn⟩

/-- Settles O7: acceptance of each ordered strategy, whose ERRBUF stays. -/
theorem orderedCommandIsAccepted : Obligations.OrderedCommandIsAccepted := fun _ irqEn hb hargs hord =>
  ⟨exec_instr_of_pass hb hargs hord .bayer2 irqEn, exec_instr_of_pass hb hargs hord .bayer4 irqEn,
    exec_instr_of_pass hb hargs hord .bayer8 irqEn, exec_instr_of_pass hb hargs hord .clust4 irqEn⟩

/-! The interrupt after a command. -/

/-- A rejection raises the interrupt where the command enables it (R160, R165). -/
theorem irq_rejected (irqEn : Bool) (algo : BitVec 4) (c : ErrCode) (s : State) :
    ((s.beginIssue irqEn algo).raiseError c).irq = irqEn := by
  simp [State.irq]

/-- Acceptance leaves the interrupt as it finds it, with or without a mark (R144, R172). -/
theorem irq_accept (a : Strategy) (s : State) : (s.accept a).irq = s.irq := by
  rcases accept_cases a s with ⟨-, h⟩ | ⟨-, h⟩ <;> simp [h, State.irq]

/-- An issue clears DONE and ERR, so that the interrupt is low until an error is taken (R141, R165). -/
theorem irq_beginIssue (irqEn : Bool) (algo : BitVec 4) (s : State) : (s.beginIssue irqEn algo).irq = false := by
  simp [State.irq]

/-- Settles O12, by the outcome of the issue. -/
theorem interruptFollowsCommands : Obligations.InterruptFollowsCommands := by
  intro s t a irqEn hb hexec
  rw [exec_instr] at hexec
  rw [argsPass_iff]
  rcases issueCommand_cases a irqEn s with ⟨hbusy, -⟩ | ⟨-, c, hargs, h⟩ | ⟨-, hargs, h⟩
  · cases hb.symm.trans hbusy
  · cases hexec.symm.trans h
    exact ⟨fun _ => irq_rejected .., fun hpass => by simp [hargs] at hpass⟩
  · cases hexec.symm.trans h
    exact ⟨fun hfail => absurd hargs hfail, fun _ => (irq_accept ..).trans (irq_beginIssue ..)⟩

/-! The launch of a run. -/

/-- The CTRL write of a command's word runs the command once the bus has taken the write (R70, R80). -/
theorem step_commandWord {s : State} {rest : List Event} {a : Strategy} {irqEn : Bool}
    (hi : s.inputs = ctrlEvent (commandWord a irqEn) :: rest) : step s = issueCommand a irqEn (s.taking rest) := by
  have hdecode : decodeWord (commandWord a irqEn) = .ok (a.instr irqEn) := by
    simpa [commandWord] using decodeWord_encode (a.instr irqEn)
  rw [stepRunsDecodedInstruction s _ _ rest hi hdecode, exec_instr]
  rfl

/-- What a launch asks of a state before the issue, but for the moves of the other agents (R183). -/
structure ReadyToLaunch (s : State) : Prop where
  wf : LaunchWf s
  idle : s.fsm = .idle
  not_busy : s.busy = false
  unmarked : s.marked = false
  ordinary : s.bufferOrdinary = true
  args : ArgsPass s

theorem CleanLaunch.ready {s : State} (hclean : CleanLaunch s) (hwf : LaunchWf s) (hargs : ArgsPass s) : ReadyToLaunch s :=
  ⟨hwf, hclean.idle, hclean.not_busy, hclean.unmarked, hargs.bufferOrdinary_eq.trans hclean.ordinary, hargs⟩

section ready
variable {s : State} (h : ReadyToLaunch s)
include h

/-- The host's CTRL write leaves a state ready for the launch that it carries. -/
theorem ReadyToLaunch.taking (rest : List Event) : ReadyToLaunch (s.taking rest) :=
  ⟨⟨h.wf.params_wf, h.wf.mem_wf⟩, h.idle, h.not_busy, h.unmarked, h.ordinary, h.args⟩

/-- From a state ready for a launch the issue starts a run of its strategy, and leaves memory and the queue (R144). -/
theorem ReadyToLaunch.issueCommand (a : Strategy) (irqEn : Bool) : ∃ t, Machine.issueCommand a irqEn s = .next t ∧
    RunStart t ∧ t.lat.strategy = a ∧ t.mem = s.mem ∧ t.inputs = s.inputs := by
  have hord : (s.beginIssue irqEn a.code).bufferOrdinary = true := h.ordinary
  refine ⟨_, issueCommand_of_pass h.not_busy h.args a irqEn,
    runStart_accept h.wf h.idle h.not_busy h.unmarked h.args h.ordinary a irqEn, ?_⟩
  rw [accept_of_ordinary hord]
  exact ⟨rfl, rfl, rfl⟩

end ready

/-- Settles O50: the issue of the command, at the state of the launch and at the one its CTRL write leaves. -/
theorem cleanLaunchStartsARun : Obligations.CleanLaunchStartsARun := by
  intro s a irqEn hwf hclean hargs
  have hready := hclean.ready hwf hargs
  refine ⟨?_, fun rest hi => ?_⟩
  · obtain ⟨t, ht, hstart, hstrategy, hmem, -⟩ := hready.issueCommand a irqEn
    exact ⟨t, (exec_instr ..).trans ht, hstart, hstrategy, hmem⟩
  · obtain ⟨t, ht, hstart, hstrategy, hmem, hinputs⟩ := (hready.taking rest).issueCommand a irqEn
    have hbit : startBit (commandWord a irqEn) = true := (fields_ctrlWordOf ..).1
    exact ⟨t, ⟨hclean.not_busy, ⟨_, rest, hi, hbit⟩, (step_commandWord hi).trans ht⟩, hstart, hstrategy, hmem, hinputs⟩

/-! The first command after reset. -/

/-- A word is the table word of its own value. -/
@[simp] theorem tableWord_toNat (w : Word) : tableWord 32 w.toNat = w := by
  simp [tableWord, Nat.mod_eq_of_lt w.isLt]

/-- A command is rejected with the first failing check of its operands (R141). -/
theorem issueCommand_of_argError {s : State} {c : ErrCode} (hb : s.busy = false) (hargs : s.argError = some c) (a : Strategy)
    (irqEn : Bool) : issueCommand a irqEn s = .next ((s.beginIssue irqEn a.code).raiseError c) := by
  simp [issueCommand, hb, hargs, State.reject]

/-- After a rejection STATUS reads ERR and the command's ERRCODE, and no other flag (R21, R160). -/
theorem statusWord_rejected (irqEn : Bool) (algo : BitVec 4) (c : ErrCode) (s : State) :
    ((s.beginIssue irqEn algo).raiseError c).statusWord =
      (0 : BitVec 20) ++ c.code ++ (0 : BitVec 5) ++ flagBit true ++ flagBit false ++ flagBit false := rfl

/-- Settles O23: WIDTH is 0 after reset, so that the first check of the operands fails. -/
theorem firstCommandAfterResetIsBadDim : Obligations.FirstCommandAfterResetIsBadDim := by
  intro a irqEn
  have hi : (State.reset.withFetchWord 32 (commandWord a irqEn).toNat).inputs = [ctrlEvent (commandWord a irqEn)] := by
    rw [State.withFetchWord_inputs, tableWord_toNat]
    rfl
  exact ⟨_, (step_commandWord hi).trans (issueCommand_of_argError rfl rfl a irqEn),
    (statusWord_rejected ..).trans (by decide), irq_rejected .., rfl, rfl⟩

/-! CTRL.SET. -/

theorem exec_ctrlSet_of_idle {s : State} (hb : s.busy = false) (irqEn : Bool) (algo : BitVec 4) :
    exec (.ctrlSet irqEn algo) s = .next { s with irqEn := irqEn, algo := algo } := by
  rcases execCtrlSet_cases irqEn algo s with ⟨hbusy, -⟩ | ⟨-, h⟩
  · cases hb.symm.trans hbusy
  · exact h

/-- Settles O10: a word with bit 0 clear is CTRL.SET with the word's fields, whatever its other bits (R79). -/
theorem ctrlSetWritesItsFields : Obligations.CtrlSetWritesItsFields := by
  intro s hb
  refine ⟨exec_ctrlSet_of_idle hb, fun d rest hi hstart => ⟨_, ?_, rfl, rfl⟩⟩
  have hdecode : decodeWord d = .ok (.ctrlSet (irqBit d) (algoField d)) :=
    (decodeWord_eq_ctrlSet_iff ..).2 ⟨hstart, rfl, rfl⟩
  rw [stepRunsDecodedInstruction s d _ rest hi hdecode]
  exact exec_ctrlSet_of_idle (s := { s with inputs := rest, resp := .written }) hb ..

/-! What BUSY = 1 ignores. -/

/-- Settles O11: a word written to CTRL while BUSY = 1 reaches no instruction's effect. -/
theorem busyIgnoresCtrlWrites : Obligations.BusyIgnoresCtrlWrites := fun s d rest hi hb =>
  (step_ctrl hi).trans (ctrlStep_of_busy (s := s.withInputs rest) hb d)

/-- Settles O13: during a run an access to the window leaves the bus's answer alone. -/
theorem hostAccessesLeaveARunAlone : Obligations.HostAccessesLeaveARunAlone := by
  intro s a rest h hb hi
  obtain ⟨r, hr⟩ := (h.withInputs rest).accessStep_of_run (h.flags.busy_iff_run.1 hb) a
  exact ⟨r, (step_cons hi).trans hr⟩

/-! The registers, read and written. -/

/-- The CTRL word as a number (R20). -/
theorem toNat_ctrlWord (s : State) : s.ctrlWord.toNat = s.algo.toNat * 16 + s.irqEn.toNat * 2 := by
  simp only [State.ctrlWord, flagBit, toNat_append_eq_add, BitVec.toNat_ofBool, BitVec.ofNat_eq_ofNat, BitVec.toNat_zero]
  omega

/-- The STATUS word as a number (R21). -/
theorem toNat_statusWord (s : State) :
    s.statusWord.toNat = s.errcode.code.toNat * 256 + s.err.toNat * 4 + s.done.toNat * 2 + s.busy.toNat := by
  simp only [State.statusWord, flagBit, toNat_append_eq_add, BitVec.toNat_ofBool, BitVec.ofNat_eq_ofNat, BitVec.toNat_zero]
  omega

/-- MAXDIM as a number (R19). -/
theorem toNat_maxDim (s : State) :
    (s.regRead .maxDim).toNat = s.params.maxHeight.toNat * 65536 + s.params.maxWidth.toNat :=
  toNat_append_eq_add s.params.maxHeight s.params.maxWidth

/-- Settles O15: the answer is the register's value, whose fields are read off for each register. -/
theorem registerReadReturnsItsFields : Obligations.RegisterReadReturnsItsFields := by
  intro s r rest hi
  refine ⟨s.regRead r, step_regRead hi, ?_⟩
  cases r with
  | ctrl => simp [State.regRead, toNat_ctrlWord]
  | status => simp [State.regRead, toNat_statusWord]
  | maxDim => simp [toNat_maxDim]
  | id | version | caps | width | height | threshold | bufBase | bufLen | progress | faultAddr | reserved34 | reserved38
  | reserved3C => simp [State.regRead]

/-- A legal write that the register ignores changes nothing but the queue and the bus's answer (R138, R139). -/
theorem step_regWrite_ignored {s : State} {r : RegName} {d : Word} {rest : List Event} (hr : r ≠ .ctrl)
    (hi : s.inputs = .access (.wr .word (regOffset r) d) :: rest)
    (hw : (s.withInputs rest).regWrite r d = s.withInputs rest) :
    step s = .next { s with inputs := rest, resp := .written } := by
  rw [step_regWrite hr hi, hw]
  rfl

/-- While BUSY = 1 a configuration register ignores a write (R139). -/
theorem regWrite_configuration_of_busy {s : State} {r : RegName} (hb : s.busy = true)
    (hr : r ∈ [RegName.width, .height, .threshold, .bufBase, .bufLen]) (d : Word) : s.regWrite r d = s := by
  simp only [List.mem_cons, List.not_mem_nil, or_false] at hr
  rcases hr with rfl | rfl | rfl | rfl | rfl <;> exact if_pos hb

/-- Settles O16: what the write of each configuration register does, with BUSY = 1 and with BUSY = 0. -/
theorem configurationWrites : Obligations.ConfigurationWrites := by
  intro s r d rest hi s'
  refine ⟨fun hb hr => ?_, fun hb => ?_⟩
  · have hctrl : r ≠ .ctrl := by
      rintro rfl
      simp at hr
    exact step_regWrite_ignored hctrl hi (regWrite_configuration_of_busy (s := s.withInputs rest) hb hr d)
  · obtain ⟨hw, hh, ht, hbase, hlen⟩ := regWrite_idle (s := s.withInputs rest) hb d
    refine ⟨?_, ?_, ?_, ?_, ?_⟩ <;> rintro rfl <;> rw [step_regWrite (by decide) hi]
    · rw [hw]; rfl
    · rw [hh]; rfl
    · rw [ht]; rfl
    · rw [hbase]; rfl
    · rw [hlen]; rfl

/-- Settles O18: none of the six registers takes a write. -/
theorem readOnlyWritesIgnored : Obligations.ReadOnlyWritesIgnored := by
  intro s r d rest hi hr
  simp only [List.mem_cons, List.not_mem_nil, or_false] at hr
  rcases hr with rfl | rfl | rfl | rfl | rfl | rfl <;> exact step_regWrite_ignored (by decide) hi rfl

end Sys2Proof.Machine

/-! PROOFS. The errors the block takes: the rejection by the first failing check (O9) and the aborts of a pixel step (O40, O41); and
that no move clears a ModelFault mark (O48). -/

namespace Sys2Proof.Machine

open Sys2Proof

/-! The rejection of a command. -/

section checks
variable (s : State)

/-- BAD_DIM in the registers' own terms (R157). -/
theorem badDim_eq_true : s.badDim = true ↔ s.width.toNat = 0 ∨ s.params.maxWidth.toNat < s.width.toNat ∨ s.height.toNat = 0 ∨
    s.params.maxHeight.toNat < s.height.toNat := by
  simp only [State.badDim, Bool.or_eq_true, beq_iff_eq, decide_eq_true_iff, or_assoc]
  rfl

theorem badLen_eq_true : s.badLen = true ↔ s.bufLen.toNat ≠ s.width.toNat * s.height.toNat * 4 := bne_iff_ne

theorem badAlign_eq_true : s.badAlign = true ↔ s.bufBase.toNat % 4 ≠ 0 := bne_iff_ne

theorem badRange_eq_true : s.badRange = true ↔ 2 ^ 32 < s.bufBase.toNat + s.bufLen.toNat := decide_eq_true_iff

end checks

/-- A command whose operands fail a check is rejected with the first such check: the whole next state (R141, R160). -/
theorem exec_instr_of_argError {s : State} {c : ErrCode} (hb : s.busy = false) (hargs : s.argError = some c) (a : Strategy)
    (irqEn : Bool) : exec (a.instr irqEn) s = .next (rejectedState irqEn a.code c s) := by
  rw [exec_instr, issueCommand_of_argError hb hargs]
  rfl

/-- Settles O9: the premises walk down the checks of the operands to the first that fails (R141, R162). -/
theorem commandRejectedByFirstFailingCheck : Obligations.CommandRejectedByFirstFailingCheck := by
  intro s a irqEn hb w h dimFails lenFails alignFails rangeFails
  have hdim : s.badDim = true ↔ dimFails := badDim_eq_true s
  have hlen : s.badLen = true ↔ lenFails := badLen_eq_true s
  have halign : s.badAlign = true ↔ alignFails := badAlign_eq_true s
  have hrange : s.badRange = true ↔ rangeFails := badRange_eq_true s
  have rejected {c : ErrCode} (hc : s.argError = some c) := exec_instr_of_argError hb hc a irqEn
  rw [← hdim, ← hlen, ← halign, ← hrange]
  refine ⟨fun h1 => rejected ?_, fun h1 h2 => rejected ?_, fun h1 h2 h3 => rejected ?_, fun h1 h2 h3 h4 => rejected ?_⟩
  · rw [State.argError, if_pos h1]
  · rw [State.argError, if_neg h1, if_pos h2]
  · rw [State.argError, if_neg h1, if_neg h2, if_pos h3]
  · rw [State.argError, if_neg h1, if_neg h2, if_neg h3, if_pos h4]

/-! The abort of a run. -/

section running
variable {s : State} (hscan : s.scanP < s.lat.pixels) (hmem : s.lat.base.toNat + 4 * s.lat.pixels ≤ 2 ^ 32)
include hscan hmem

/-- The next pixel of a buffer in memory lies in memory (R45). -/
theorem pixelAddr_scanP_le : s.lat.pixelAddr s.scanP + 4 ≤ memoryLimit := by
  unfold Latch.pixelAddr memoryLimit
  omega

/-- During a run over a buffer in memory, a pixel whose computation fails aborts the run (R161). -/
theorem pixelStep_of_fail (hrun : s.fsm = .run) {a : Nat} {u : State} (hfail : computePixel s.scanP s = .fail a u) :
    pixelStep s = .next (u.abort a) := by
  have hen : s.engineEnabled = true := (engineEnabled_iff s).2 ⟨hrun, hscan⟩
  rw [pixelStep, if_pos hen, if_pos (pixelAddr_scanP_le hscan hmem), hfail, finishPixel]

end running

/-- Settles O40: the computation fails at its read, and the abort keeps what it does not name. -/
theorem readErrorAborts : Obligations.ReadErrorAborts := by
  intro s rest x y z hrun hscan hmem hbus
  have hfail := computePixel_of_read_error (p := s.scanP) (nextAnswer_cons hbus ..)
  refine ⟨_, pixelStep_of_fail hscan hmem hrun hfail, ?_⟩
  simp [Latch.pixelAddr]

/-- The output of the pixel step that is next, in the terms of the statements (R104, R105, R125 to R127). -/
theorem stepOutput_eq_nextOutput (s : State) : stepOutput s.scanP s = nextOutput s := by
  unfold nextOutput
  split
  · rename_i hd
    rw [stepOutput_diffusion hd, adjustedGray_eq, binarize_eq]
  · rename_i hd
    exact stepOutput_ordered (Bool.eq_false_iff.2 hd)

/-- Settles O41: the computation fails at its write, which stores the output under the answer's mask, and the abort keeps memory. -/
theorem writeErrorAborts : Obligations.WriteErrorAborts := by
  intro s rest x y z hrun hscan hmark hwf hmem hbus out
  have hwrite : s.dropAnswer.nextAnswer .write (s.lat.pixelAddr s.scanP) = .error x y z :=
    nextAnswer_cons (by rw [dropAnswer_cons hbus]) ..
  have hfail := computePixel_of_write_error (nextAnswer_cons hbus ..) hwrite
  have hsample {c : Nat} (hc : c < 3) :
      pixelByte ((wrotePixel s.scanP x y z s).abort (s.lat.pixelAddr s.scanP)).mem s.lat s.scanP c =
        if maskBit x y z c = true then out else pixelByte s.mem s.lat s.scanP c := by
    rw [State.abort_mem, pixelByte_wrotePixel_self x y z hmark hwf (pixelAddr_scanP_le hscan hmem) hc, stepOutput_eq_nextOutput]
  refine ⟨_, pixelStep_of_fail hscan hmem hrun hfail, rfl, rfl, by simp, rfl, rfl, rfl, by simp, by simp,
    hsample (by decide), hsample (by decide), hsample (by decide), fun a ha => ?_⟩
  rw [State.abort_mem]
  exact wrotePixel_read_of_no_sample x y z ha

/-! The ModelFault marks. -/

/-- Is each ModelFault mark of the first state still set in the second (R172)? -/
structure KeepsMarks (s t : State) : Prop where
  hostRace : s.hostRace = true → t.hostRace = true
  bufferNotMemory : s.bufferNotMemory = true → t.bufferNotMemory = true

/-- An update that leaves both marks alone keeps them. -/
theorem KeepsMarks.of_eq {s t : State} (hrace : t.hostRace = s.hostRace) (hnoMem : t.bufferNotMemory = s.bufferNotMemory) :
    KeepsMarks s t := ⟨hrace.trans, hnoMem.trans⟩

/-- Recording a ModelFault sets one mark and keeps the other (R172). -/
theorem recordFault_keepsMarks (f : ModelFault) (s : State) : KeepsMarks s (s.recordFault f) :=
  ⟨fun h => by simp [h], fun h => by simp [h]⟩

theorem KeepsMarks.trans {s t u : State} (h : KeepsMarks s t) (h' : KeepsMarks t u) : KeepsMarks s u :=
  ⟨h'.hostRace ∘ h.hostRace, h'.bufferNotMemory ∘ h.bufferNotMemory⟩

/-- Acceptance records BUFFER_NOT_MEMORY, or leaves the marks (R57, R144). -/
theorem accept_keepsMarks (a : Strategy) (s : State) : KeepsMarks s (s.accept a) := by
  have hstart : KeepsMarks s (s.startRun a) := .of_eq rfl rfl
  rcases accept_cases a s with ⟨-, h⟩ | ⟨-, h⟩ <;> rw [h]
  · exact hstart
  · exact hstart.trans (recordFault_keepsMarks _ _)

theorem regWrite_keepsMarks (r : RegName) (d : Word) (s : State) : KeepsMarks s (s.regWrite r d) := by
  have hstatus : KeepsMarks s (s.writeStatus d) := by
    rw [writeStatus_eq]
    exact .of_eq rfl rfl
  cases hb : s.busy
  · obtain ⟨hw, hh, ht, hbase, hlen⟩ := regWrite_idle hb d
    cases r with
    | width => rw [hw]; exact .of_eq rfl rfl
    | height => rw [hh]; exact .of_eq rfl rfl
    | threshold => rw [ht]; exact .of_eq rfl rfl
    | bufBase => rw [hbase]; exact .of_eq rfl rfl
    | bufLen => rw [hlen]; exact .of_eq rfl rfl
    | status => exact hstatus
    | id | version | caps | ctrl | progress | faultAddr | maxDim | reserved34 | reserved38 | reserved3C => exact .of_eq rfl rfl
  · rcases regWrite_busy hb r d with h | h <;> rw [h]
    · exact .of_eq rfl rfl
    · exact hstatus

/-- Of the instructions only an accepted command can touch a mark (R57, R141). -/
theorem exec_keepsMarks (i : Instr) (s : State) : OnNext (KeepsMarks s) (exec i s) := by
  rcases exec_cases i s with ⟨a, irqEn, -, h⟩ | ⟨irqEn, algo, -, h⟩ <;> rw [h]
  · rcases issueCommand_cases a irqEn s with ⟨-, h'⟩ | ⟨-, c, -, h'⟩ | ⟨-, -, h'⟩ <;> rw [h', onNext_next]
    · exact .of_eq rfl rfl
    · exact .of_eq rfl rfl
    · have hissue : KeepsMarks s (s.beginIssue irqEn a.code) := .of_eq rfl rfl
      exact hissue.trans (accept_keepsMarks _ _)
  · rcases execCtrlSet_cases irqEn algo s with ⟨-, h'⟩ | ⟨-, h'⟩ <;> rw [h', onNext_next] <;> exact .of_eq rfl rfl

/-- A register access leaves the marks, but for a command accepted over no ordinary memory, which may set one (R57). -/
theorem accessStep_keepsMarks (a : Access) (s : State) : OnNext (KeepsMarks s) (accessStep a s) := by
  rcases accessStep_cases a s with ⟨d, -, h⟩ | ⟨r, h⟩ | ⟨r, d, h⟩ <;> rw [h]
  · rcases ctrlStep_cases d s with ⟨i, -, h'⟩ | ⟨e, -, h'⟩ <;> rw [h']
    · have hrespond : KeepsMarks s (s.respond .written) := .of_eq rfl rfl
      exact fun t ht => hrespond.trans (exec_keepsMarks i (s.respond .written) t ht)
    · rcases issueIllegal_cases d e (s.respond .written) with ⟨-, hi⟩ | ⟨-, hi⟩ <;> rw [hi, onNext_next] <;>
        exact .of_eq rfl rfl
  · exact (onNext_next ..).2 (.of_eq rfl rfl)
  · exact (onNext_next ..).2 ((regWrite_keepsMarks r d s).trans (.of_eq rfl rfl))

/-- A memory access records HOST_RACE where it races, and else leaves the marks (R62). -/
theorem memAccess_keepsMarks (who : Requester) (op : MemOp) (s : State) : OnNext (KeepsMarks s) (memAccess who op s) := by
  rcases memAccess_cases who op s with
    ⟨-, h⟩ | ⟨-, -, h⟩ | ⟨-, -, -, h⟩ | ⟨-, -, -, ⟨a, -, h⟩ | ⟨a, b, -, h⟩⟩ <;> rw [h, onNext_next]
  · exact (recordFault_keepsMarks .hostRace s).trans (.of_eq rfl rfl)
  · exact .of_eq rfl rfl
  · exact .of_eq rfl rfl
  · obtain ⟨cs, b, hr⟩ := readMem_cases who a.toNat s
    rw [hr]
    exact .of_eq rfl rfl
  · rcases writeMem_cases who a.toNat b s with ⟨cs, hw⟩ | hw <;> rw [hw] <;> exact .of_eq rfl rfl

theorem cleanCopy_keepsMarks (a : Nat) (s : State) : KeepsMarks s (cleanCopy a s) := by
  rcases cleanCopy_cases a s with h | ⟨-, h⟩ | ⟨-, b, cs, h⟩ <;> rw [h]
  · exact .of_eq rfl rfl
  · exact recordFault_keepsMarks .hostRace s
  · exact .of_eq rfl rfl

theorem discardCopy_keepsMarks (a : Nat) (s : State) : KeepsMarks s (discardCopy a s) := by
  obtain ⟨cs, h⟩ := discardCopy_cases a s
  rw [h]
  exact .of_eq rfl rfl

/-- The marks lie beside the ENGINE, which leaves them (R172). -/
theorem EngineLeaves.keepsMarks {s t : State} (h : EngineLeaves s t) : KeepsMarks s t :=
  .of_eq (congrArg State.hostRace h.beside :) (congrArg State.bufferNotMemory h.beside :)

theorem pixelStep_keepsMarks (s : State) : OnNext (KeepsMarks s) (pixelStep s) :=
  fun t ht => (pixelStep_leaves s t ht).keepsMarks

/-- No agent's move clears a mark, the reset input included (R172, R180). -/
theorem eventStep_keepsMarks (e : Event) (s : State) : OnNext (KeepsMarks s) (eventStep e s) := by
  cases e with
  | access a => exact accessStep_keepsMarks a s
  | mem who op => exact memAccess_keepsMarks who op s
  | clean a => exact (onNext_next ..).2 (cleanCopy_keepsMarks a.toNat s)
  | discard a => exact (onNext_next ..).2 (discardCopy_keepsMarks a.toNat s)
  | engine => exact pixelStep_keepsMarks s
  | reset => exact (onNext_next ..).2 (.of_eq rfl rfl)

/-- Settles O48, by the agent that moves. -/
theorem modelFaultMarksStay : Obligations.ModelFaultMarksStay := by
  intro s t hstep
  have hkeeps : KeepsMarks s t := by
    cases hi : s.inputs with
    | nil => exact pixelStep_keepsMarks s t (by rwa [step_nil hi] at hstep)
    | cons e rest =>
      have htaken : KeepsMarks s (s.withInputs rest) := .of_eq rfl rfl
      exact htaken.trans (eventStep_keepsMarks e (s.withInputs rest) t (by rwa [step_cons hi] at hstep))
  exact ⟨hkeeps.hostRace, hkeeps.bufferNotMemory⟩

end Sys2Proof.Machine
